-- ==== Sys2Proof/Word.lean ====
section
/-! DEFINITION. The word types of ECE CORE (spec/00_scope.md R8, R9). Every value is unsigned; bit 0 is
the least significant bit (00_scope.md, section 4). -/

namespace Sys2Proof

/-- An instruction word: 16 bits (R8 `WORD_WIDTH`, R60). -/
abbrev Word := BitVec 16

/-- An index of the program store: 8 bits, wrapping (R8 `PC_WIDTH` and `JUMP_WIDTH`, R22, R61). -/
abbrev StoreIndex := BitVec 8

/-- The index into the condition multiplexer: 3 bits (R8 `COND_SEL_WIDTH`, R63). -/
abbrev CondSel := BitVec 3

/-- The program-length register's value: 9 bits, holding 0 to 256 (R9 `LEN_WIDTH`, R27). -/
abbrev Len := BitVec 9

end Sys2Proof
end

