-- ==== Sys2Proof/Config.lean ====
section
/-! DEFINITION. What is fixed for every ECE CORE (spec/00_scope.md R8), the input port's type, and the one
free value of the model. `PROGRAM_IMAGE` (R9) is an argument of the boot functions (Machine/Boot.lean). -/

namespace Sys2Proof

/-- `STORE_DEPTH` (R8, R24): the number of entries of the program store, and the longest program that
`load` takes (R121). -/
abbrev Config.storeDepth : Nat := 256

/-- The snapshot of the sensor inputs supplied to every step (spec/10_state.md R30): five independent
booleans, all 32 combinations legal. The source's count "six" is corrected to five by
spec/90_conflicts.md C1 (`NUM_COND_INPUTS`, R8). -/
structure ConditionInputs where
  callPendingBelow : Bool
  callPendingSame  : Bool
  callPendingAbove : Bool
  doorClosed       : Bool
  doorOpen         : Bool
  deriving DecidableEq, Repr, Inhabited

/-- FREE VALUE (log 6). The snapshot the driving loop supplies with the `n`-th step that no pending
transaction scripts. The host chooses it (R30, R33: "must feed a fresh `ConditionInputs` snapshot each
cycle"); nothing here constrains it. -/
opaque Config.freeInputs : Nat → ConditionInputs

end Sys2Proof
end

