-- ==== Sys2Proof/Syntax.lean ====
section
/-! DEFINITION. The instructions of ECE CORE: one constructor per row of spec/opcode_table.json, their
operands, and the two record forms the codec works on (spec/10_state.md R25, spec/30_encoding.md R60, R66, R70). -/

namespace Sys2Proof

/-- The operands of every form (R130): bits 11 to 0 of the word. -/
structure Operands where
  /-- `w[7:0]`, the absolute branch target (R61). -/
  jumpAddr     : StoreIndex
  /-- `w[8]`, "move upward" (R62). -/
  reqMoveUp    : Bool
  /-- `w[9]`, "move downward" (R62). -/
  reqMoveDown  : Bool
  /-- `w[10]`, target door state: false = closed, true = open (R62). -/
  reqDoorState : Bool
  /-- `w[11]`, "clear the serviced call's pending memory" (R62). -/
  reqReset     : Bool
  deriving DecidableEq, Repr

/-- The sixteen instruction forms, one per value of `w[15:12]` (R70), in the opcode table's order. The
mnemonics are the spec's own (decision D12). -/
inductive Instr where
  /-- `BR.ANY`, 0x0 (R131). -/
  | brAny (o : Operands)
  /-- `BR.BELOW`, 0x1 (R132). -/
  | brBelow (o : Operands)
  /-- `BR.SAME`, 0x2 (R133). -/
  | brSame (o : Operands)
  /-- `BR.ABOVE`, 0x3 (R134). -/
  | brAbove (o : Operands)
  /-- `BR.CLOSED`, 0x4 (R135). -/
  | brClosed (o : Operands)
  /-- `BR.OPEN`, 0x5 (R136). -/
  | brOpen (o : Operands)
  /-- `RSV6`, 0x6, reserved: decodes, faults when executed (R160). -/
  | rsv6 (o : Operands)
  /-- `NEXT`, 0x7 (R150). -/
  | next (o : Operands)
  /-- `BRN.ANY`, 0x8 (R137). -/
  | brnAny (o : Operands)
  /-- `BRN.BELOW`, 0x9 (R138). -/
  | brnBelow (o : Operands)
  /-- `BRN.SAME`, 0xA (R139). -/
  | brnSame (o : Operands)
  /-- `BRN.ABOVE`, 0xB (R140). -/
  | brnAbove (o : Operands)
  /-- `BRN.CLOSED`, 0xC (R141). -/
  | brnClosed (o : Operands)
  /-- `BRN.OPEN`, 0xD (R142). -/
  | brnOpen (o : Operands)
  /-- `RSV6N`, 0xE, reserved: decodes, faults when executed (R161). -/
  | rsv6n (o : Operands)
  /-- `JUMP`, 0xF (R151). -/
  | jump (o : Operands)
  deriving DecidableEq, Repr

/-- The seven decoded fields of a word, each at its declared width (R25, R65). It is also the `Output`
record and the layout of the control-output register (R28). -/
structure Fields where
  jumpAddr     : StoreIndex
  reqMoveUp    : Bool
  reqMoveDown  : Bool
  reqDoorState : Bool
  reqReset     : Bool
  condSel      : CondSel
  condInv      : Bool
  deriving DecidableEq, Repr

/-- The logical Instruction record as a host gives it to `encode` and `load` (R25, R66): seven natural
numbers, any of which may lie outside its declared range; for a boolean field `true` = 1, `false` = 0. -/
structure Record where
  jumpAddr     : Nat
  reqMoveUp    : Nat
  reqMoveDown  : Nat
  reqDoorState : Nat
  reqReset     : Nat
  condSel      : Nat
  condInv      : Nat
  deriving DecidableEq, Repr

end Sys2Proof
end

