-- ==== Sys2Proof/WellFormed.lean ====
section
/-! DEFINITION. What the types do not already say about a record given to the codec (spec/10_state.md R25,
spec/30_encoding.md R67) and about a program given to `load` (spec/41_engine.md R121). An `Instr` and a
`Fields` are in range by their types, as R26 says of every word ("by construction"), so they have no check.
A reserved `cond_sel` is no ill-formedness: such a program "is well-formed as data" (R162). -/

namespace Sys2Proof

/-- Every field is within its declared range (R25): the records for which the round trip of R67 is exact. -/
def Record.wellFormed (r : Record) : Bool :=
  decide (r.jumpAddr < 256) && decide (r.reqMoveUp < 2) && decide (r.reqMoveDown < 2) &&
  decide (r.reqDoorState < 2) && decide (r.reqReset < 2) && decide (r.condSel < 8) &&
  decide (r.condInv < 2)

/-- The program fits the store: `load` takes 0 to 256 records (R32, R121). -/
def programFits (p : List Record) : Bool := decide (p.length ≤ Config.storeDepth)

end Sys2Proof
end

