-- ==== Sys2Proof/Decode.lean ====
section
/-! DEFINITION. The instruction codec (spec/30_encoding.md). `decode` is total over all 65,536 words and
rejects none (R65, R72); `encode` never fails (R66, R178). -/

namespace Sys2Proof

/-! ## Decoding -/

/-- The operand bits 11 to 0 of a word (R60, R130). -/
def operandsOf (w : Word) : Operands where
  jumpAddr     := w.extractLsb' 0 8
  reqMoveUp    := w.getLsbD 8
  reqMoveDown  := w.getLsbD 9
  reqDoorState := w.getLsbD 10
  reqReset     := w.getLsbD 11

/-- `decode(w)` of R65: the seven fields of a word. -/
def decodeFields (w : Word) : Fields where
  jumpAddr     := w.extractLsb' 0 8
  reqMoveUp    := w.getLsbD 8
  reqMoveDown  := w.getLsbD 9
  reqDoorState := w.getLsbD 10
  reqReset     := w.getLsbD 11
  condSel      := w.extractLsb' 12 3
  condInv      := w.getLsbD 15

/-- The form a word stands for: the opcode map of R70 over bits 15, 14, 13, 12. Every pattern has its
own arm, so no reserved word falls to a neighbour (R71). -/
def decode (w : Word) : Instr :=
  match w.getLsbD 15, w.getLsbD 14, w.getLsbD 13, w.getLsbD 12 with
  | false, false, false, false => .brAny (operandsOf w)
  | false, false, false, true  => .brBelow (operandsOf w)
  | false, false, true,  false => .brSame (operandsOf w)
  | false, false, true,  true  => .brAbove (operandsOf w)
  | false, true,  false, false => .brClosed (operandsOf w)
  | false, true,  false, true  => .brOpen (operandsOf w)
  | false, true,  true,  false => .rsv6 (operandsOf w)
  | false, true,  true,  true  => .next (operandsOf w)
  | true,  false, false, false => .brnAny (operandsOf w)
  | true,  false, false, true  => .brnBelow (operandsOf w)
  | true,  false, true,  false => .brnSame (operandsOf w)
  | true,  false, true,  true  => .brnAbove (operandsOf w)
  | true,  true,  false, false => .brnClosed (operandsOf w)
  | true,  true,  false, true  => .brnOpen (operandsOf w)
  | true,  true,  true,  false => .rsv6n (operandsOf w)
  | true,  true,  true,  true  => .jump (operandsOf w)

/-- A word with `w[14:12] = 6` (R71): `RSV6` and `RSV6N`. -/
def isReserved (w : Word) : Bool := w.extractLsb' 12 3 == 6#3

/-! ## The parts of an instruction -/

/-- The operands of a form. -/
def Instr.operands : Instr → Operands
  | .brAny o | .brBelow o | .brSame o | .brAbove o | .brClosed o | .brOpen o | .rsv6 o | .next o
  | .brnAny o | .brnBelow o | .brnSame o | .brnAbove o | .brnClosed o | .brnOpen o | .rsv6n o
  | .jump o => o

/-- `cond_sel` of a form (R70's third column). -/
def Instr.condSel : Instr → CondSel
  | .brAny _    | .brnAny _    => 0
  | .brBelow _  | .brnBelow _  => 1
  | .brSame _   | .brnSame _   => 2
  | .brAbove _  | .brnAbove _  => 3
  | .brClosed _ | .brnClosed _ => 4
  | .brOpen _   | .brnOpen _   => 5
  | .rsv6 _     | .rsv6n _     => 6
  | .next _     | .jump _      => 7

/-- `cond_inv` of a form (R70's second column). -/
def Instr.condInv : Instr → Bool
  | .brAny _ | .brBelow _ | .brSame _ | .brAbove _ | .brClosed _ | .brOpen _ | .rsv6 _ | .next _ => false
  | .brnAny _ | .brnBelow _ | .brnSame _ | .brnAbove _ | .brnClosed _ | .brnOpen _ | .rsv6n _
  | .jump _ => true

/-- The value of `w[15:12]` that names a form, `cat(cond_inv:1, cond_sel:3)` (R70). -/
def Instr.opcode (i : Instr) : BitVec 4 := BitVec.ofBool i.condInv ++ i.condSel

/-- The seven fields of a form: the `Output` record that a successful step of it latches (R116). -/
def Instr.fields (i : Instr) : Fields where
  jumpAddr     := i.operands.jumpAddr
  reqMoveUp    := i.operands.reqMoveUp
  reqMoveDown  := i.operands.reqMoveDown
  reqDoorState := i.operands.reqDoorState
  reqReset     := i.operands.reqReset
  condSel      := i.condSel
  condInv      := i.condInv

/-! ## Encoding -/

/-- Bits 11 to 0, high bit first: RST, OPEN, DOWN, UP, target (R60, patterns `rodujjjjjjjj`). -/
def Operands.bits (o : Operands) : BitVec 12 :=
  BitVec.ofBool o.reqReset ++ BitVec.ofBool o.reqDoorState ++ BitVec.ofBool o.reqMoveDown ++
    BitVec.ofBool o.reqMoveUp ++ o.jumpAddr

/-- The word of an instruction: its opcode in bits 15 to 12, its operands below (R60, R70). -/
def encode (i : Instr) : Word := i.opcode ++ i.operands.bits

/-- The 16-bit view of the seven fields (R28's layout, R60). -/
def Fields.word (f : Fields) : Word :=
  BitVec.ofBool f.condInv ++ f.condSel ++ BitVec.ofBool f.reqReset ++
    BitVec.ofBool f.reqDoorState ++ BitVec.ofBool f.reqMoveDown ++ BitVec.ofBool f.reqMoveUp ++
    f.jumpAddr

/-- `encode(i)` of R66 on a host's record: each field is masked to its width, silently, and packed. -/
def Record.encode (r : Record) : Word :=
  BitVec.ofNat 16
    ((r.jumpAddr &&& 0xFF)
      ||| ((r.reqMoveUp &&& 1) <<< 8)
      ||| ((r.reqMoveDown &&& 1) <<< 9)
      ||| ((r.reqDoorState &&& 1) <<< 10)
      ||| ((r.reqReset &&& 1) <<< 11)
      ||| ((r.condSel &&& 7) <<< 12)
      ||| ((r.condInv &&& 1) <<< 15))

/-- The decoded fields as a host's record: `true` = 1, `false` = 0 (00_scope.md, section 4). -/
def Fields.toRecord (f : Fields) : Record where
  jumpAddr     := f.jumpAddr.toNat
  reqMoveUp    := f.reqMoveUp.toNat
  reqMoveDown  := f.reqMoveDown.toNat
  reqDoorState := f.reqDoorState.toNat
  reqReset     := f.reqReset.toNat
  condSel      := f.condSel.toNat
  condInv      := f.condInv.toNat

/-- Each field modulo its range: what comes back from `decode(encode(r))` (R67). -/
def Record.truncated (r : Record) : Record where
  jumpAddr     := r.jumpAddr % 256
  reqMoveUp    := r.reqMoveUp % 2
  reqMoveDown  := r.reqMoveDown % 2
  reqDoorState := r.reqDoorState % 2
  reqReset     := r.reqReset % 2
  condSel      := r.condSel % 8
  condInv      := r.condInv % 2

/-! ## The opcode table's words -/

/-- The word whose low `nbits` bits are those of `w`, the bits above zero. -/
def tableWord (nbits w : Nat) : Word := BitVec.ofNat 16 (w % 2 ^ nbits)

/-- The instruction read from the opcode table's bits. An instruction is exactly one 16-bit word (R73),
so more than 16 bits are no instruction; no other input is refused (R72). -/
def decodeTableWord (nbits w : Nat) : Option Instr :=
  if nbits ≤ 16 then some (decode (tableWord nbits w)) else none

end Sys2Proof
end

