-- ==== Sys2Proof/Machine/State.lean ====
section
/-! DEFINITION. The state of ECE CORE (spec/10_state.md R20), the reasons a step can stop, and the state at
power-on (spec/70_reset_and_hazards.md R192). -/

namespace Sys2Proof.Machine

/-- The fatal conditions (spec/60_exceptions.md R170). The selector answers one of them instead of a
boolean (R90, R96, R97), and fault entry records it (R172). No step ends in `Host.Outcome.fault`: the spec
gives a faulting step an effect, so it is a next state (log 7). -/
inductive Fault where
  /-- `RESERVED_COND_SEL`, code 1. Raised by the selector on index 6, hence by `RSV6` and `RSV6N`
  (R96, R160, R161). Safe: the spec names it. -/
  | reservedCondSel
  /-- `COND_SEL_OUT_OF_RANGE`, code 2. Raised by the selector on an index of 8 or more; no instruction has
  one (R97, D13). Safe: a fault, never a value. -/
  | condSelOutOfRange
  deriving DecidableEq, Repr

/-- Why a transaction has no transition (R176). A refusal changes no state (log 8). -/
inductive Refusal where
  /-- Raised by `exec` alone, for an instruction that has no meaning yet. Safe. -/
  | notModelled (mnemonic : String)
  /-- `STEP_AFTER_FAULT`: raised by a step while `fault.active` = 1 (R111, R120). Safe. -/
  | stepAfterFault
  /-- `OP_AFTER_FAULT`: raised by `load` and `reset` while `fault.active` = 1 (R121, R190). Safe. -/
  | opAfterFault
  /-- `LOAD_TOO_LONG`: raised by `load` of more than 256 records (R121, D7). Safe. -/
  | loadTooLong
  /-- `INDEX_OUT_OF_RANGE`: raised by the host read `wordAt(i)` with `i ≥ 256` (R44, D10). Safe. -/
  | indexOutOfRange
  deriving DecidableEq, Repr

/-- The value of the fault register's `reason` field (R29). -/
inductive FaultReason where
  /-- Code 0: what the field reads as at power-on. -/
  | none
  /-- Code 1. -/
  | reservedCondSel
  /-- Code 2. -/
  | condSelOutOfRange
  deriving DecidableEq, Repr

/-- The fault register (R29). -/
structure FaultReg where
  active : Bool
  reason : FaultReason
  fpc    : StoreIndex
  fword  : Word
  deriving DecidableEq, Repr

/-- The program store's contents: (word index, word) pairs, indices strictly rising and below 256, no word
0x0000 (an index that is not listed reads 0x0000: log 2). The unit is the 16-bit word, because the store is
word-addressed and has no byte order (R40, R42, R43: log 1). -/
abbrev Memory := List (Nat × Word)

/-- A transaction of the host that changes state (R32, R36). The introspection reads change nothing and
are functions of the state (Machine/HostOps.lean). -/
inductive Transaction where
  | reset
  | load (program : List Record)
  | step (inputs : ConditionInputs)
  deriving DecidableEq, Repr

/-- The machine's state. The first five fields are the whole architectural state (R20); the last three
are the model's own (logs 4, 5, 6). -/
structure State where
  /-- Program counter (R22). -/
  pc      : StoreIndex
  /-- Program store (R24). -/
  store   : Memory
  /-- Program length, for diagnostics only (R27). -/
  len     : Len
  /-- Control-output register: the Output of the last successful step (R28). -/
  out     : Fields
  /-- Fault register (R29). -/
  fault   : FaultReg
  /-- The input port: the snapshot the current step samples (R30; log 4). -/
  inputs  : ConditionInputs
  /-- The host's transactions not yet performed, the next one first (R32, R46; log 5). -/
  pending : List Transaction
  /-- How many free snapshots have been drawn (log 6). -/
  draws   : Nat
  deriving DecidableEq, Repr

/-- All seven fields 0 (R190: `decode(0x0000)`; D3, log 11). -/
def zeroFields : Fields where
  jumpAddr     := 0
  reqMoveUp    := false
  reqMoveDown  := false
  reqDoorState := false
  reqReset     := false
  condSel      := 0
  condInv      := false

/-- The inactive fault register: every field reads as 0 (R29, R192; D11, log 13). -/
def noFault : FaultReg where
  active := false
  reason := .none
  fpc    := 0
  fword  := 0

/-- Every input 0 (log 4). -/
def quietInputs : ConditionInputs where
  callPendingBelow := false
  callPendingSame  := false
  callPendingAbove := false
  doorClosed       := false
  doorOpen         := false

/-- Power-on (R192), which is also the state after `reset()` (R191): the store all 0x0000, `pc` 0; `len`,
`out` and `fault` as the spec decides (logs 11 to 13); the model's own fields as logs 4 to 6 say. -/
def State.reset : State where
  pc      := 0
  store   := []
  len     := 0
  out     := zeroFields
  fault   := noFault
  inputs  := quietInputs
  pending := []
  draws   := 0

end Sys2Proof.Machine
end

