-- ==== Sys2Proof/Machine/Flags.lean ====
section
/-! DEFINITION. The condition selector (spec/40_condition_selector.md). ECE CORE has no flags and stores no
condition (spec/10_state.md R34): this boolean, computed afresh in every step, is all there is. -/

namespace Sys2Proof.Machine

/-- Index 0, ANY_PENDING: the OR of the three call signals; the doors do not enter it (R92). -/
def anyPending (inp : ConditionInputs) : Bool :=
  inp.callPendingBelow || inp.callPendingSame || inp.callPendingAbove

/-- The multiplexer (R91): the source signal of an index, or the fault it raises. Index 6 has no value
(R96); an index of 8 or more cannot arise from the 3-bit field and is still checked (R97, log 16). -/
def selectSource (index : Nat) (inp : ConditionInputs) : Except Fault Bool :=
  match index with
  | 0 => .ok (anyPending inp)
  | 1 => .ok inp.callPendingBelow
  | 2 => .ok inp.callPendingSame
  | 3 => .ok inp.callPendingAbove
  | 4 => .ok inp.doorClosed
  | 5 => .ok inp.doorOpen
  | 6 => .error .reservedCondSel
  | 7 => .ok false
  | _ => .error .condSelOutOfRange

/-- `evaluate(invert, index, inputs)` (R90, R95): the source XOR `invert`. -/
def evaluate (invert : Bool) (index : Nat) (inp : ConditionInputs) : Except Fault Bool :=
  match selectSource index inp with
  | .ok source => .ok (source ^^ invert)
  | .error f   => .error f

end Sys2Proof.Machine
end

