-- ==== Sys2Proof/Machine/Operands.lean ====
section
/-! DEFINITION. What a form does with its operands. The one immediate is the absolute target
(spec/30_encoding.md R61); the command bits are passed on unchanged (R62), with the whole word (R116). -/

namespace Sys2Proof.Machine

/-- The next sequential index, `(pc + 1) mod 256` (R73, R115); 255 wraps to 0 (R54). -/
def sequentialPc (pc : StoreIndex) : StoreIndex := pc + 1

/-- The branch target: `jump_addr` itself, no offset, scale or sign (R61, R152). -/
def targetPc (o : Operands) : StoreIndex := o.jumpAddr

/-- The next `pc` (R115). -/
def nextPc (taken : Bool) (o : Operands) (pc : StoreIndex) : StoreIndex :=
  if taken then targetPc o else sequentialPc pc

end Sys2Proof.Machine
end

