-- ==== Sys2Proof/Machine/Ops.lean ====
section
/-! DEFINITION. The named operations over the program store and the registers, and fault entry
(spec/20_memory.md, spec/41_engine.md, spec/60_exceptions.md). There is no return from a fault (R174). -/

namespace Sys2Proof.Machine

/-! ## The program store -/

/-- Indices strictly rising from `lo`, all below 256, and no word that an unlisted index reads as. -/
def Memory.wfFrom : Nat → Memory → Bool
  | _,  []          => true
  | lo, (i, w) :: m =>
    decide (lo ≤ i) && decide (i < Config.storeDepth) && (w != 0#16) && Memory.wfFrom (i + 1) m

/-- The canonical form (log 2): equal contents are equal lists. -/
def Memory.wf (m : Memory) : Bool := Memory.wfFrom 0 m

/-- The word at an index; one that is not listed reads 0x0000 (R190; log 2). -/
def Memory.read : Memory → Nat → Word
  | [],          _ => 0#16
  | (j, v) :: m, i => if j = i then v else Memory.read m i

/-- One whole-word write (R42); writing 0x0000 unlists the index. -/
def Memory.write : Memory → Nat → Word → Memory
  | [],          i, w => if w = 0#16 then [] else [(i, w)]
  | (j, v) :: m, i, w =>
    if i < j then (if w = 0#16 then (j, v) :: m else (i, w) :: (j, v) :: m)
    else if i = j then (if w = 0#16 then m else (i, w) :: m)
    else (j, v) :: Memory.write m i w

/-- `for k in 0 .. n-1: store[first + k] <- encode(p[k])` (R121). -/
def Memory.writeProgram : Memory → Nat → List Record → Memory
  | m, _,     []     => m
  | m, first, r :: p => Memory.writeProgram (Memory.write m first r.encode) (first + 1) p

/-- Fetch: `store[pc]`, the index being `pc` itself (R54, R112). -/
def fetchWord (s : State) : Word := Memory.read s.store s.pc.toNat

/-- Fetch and decode (R111, steps 1 and 2). -/
def fetchInstr (s : State) : Instr := decode (fetchWord s)

/-! ## The end of a step -/

/-- The effects of a successful step (R115, R116): the next `pc`, and all seven fields to `out`. -/
def latch (i : Instr) (taken : Bool) (s : State) : State :=
  { s with pc := nextPc taken i.operands s.pc, out := i.fields }

/-- The fault register's code for a fault (R170). -/
def Fault.reason : Fault → FaultReason
  | .reservedCondSel   => .reservedCondSel
  | .condSelOutOfRange => .condSelOutOfRange

/-- Fault entry (R172): the fault register records the reason, the step's `pc` and the fetched word;
`pc`, `out`, `store` and `len` keep their values. -/
def enterFault (f : Fault) (w : Word) (s : State) : State :=
  { s with fault := { active := true, reason := f.reason, fpc := s.pc, fword := w } }

/-- Steps 3 to 5 of R111 for a form and the selector's answer. The fetched word is the form's own
encoding (R68; log 14). -/
def concludeStep (i : Instr) (selected : Except Fault Bool) (s : State) :
    Host.Outcome State Fault Refusal :=
  match selected with
  | .ok taken => .next (latch i taken s)
  | .error f  => .next (enterFault f (encode i) s)

end Sys2Proof.Machine
end

