-- ==== Sys2Proof/Machine/Branch.lean ====
section
/-! DEFINITION. The twelve conditional branches (spec/42_branch_conditional.md R130): each names its inversion and its
index of the condition multiplexer. -/

namespace Sys2Proof.Machine

/-- `BR.ANY` (R131): branch to the target when a call is pending below, at or above. -/
def execBrAny (o : Operands) (s : State) : Host.Outcome State Fault Refusal :=
  concludeStep (.brAny o) (evaluate false 0 s.inputs) s

/-- `BR.BELOW` (R132): branch to the target when `call_pending_below`. -/
def execBrBelow (o : Operands) (s : State) : Host.Outcome State Fault Refusal :=
  concludeStep (.brBelow o) (evaluate false 1 s.inputs) s

/-- `BR.SAME` (R133): branch to the target when `call_pending_same`. -/
def execBrSame (o : Operands) (s : State) : Host.Outcome State Fault Refusal :=
  concludeStep (.brSame o) (evaluate false 2 s.inputs) s

/-- `BR.ABOVE` (R134): branch to the target when `call_pending_above`. -/
def execBrAbove (o : Operands) (s : State) : Host.Outcome State Fault Refusal :=
  concludeStep (.brAbove o) (evaluate false 3 s.inputs) s

/-- `BR.CLOSED` (R135): branch to the target when `door_closed`. -/
def execBrClosed (o : Operands) (s : State) : Host.Outcome State Fault Refusal :=
  concludeStep (.brClosed o) (evaluate false 4 s.inputs) s

/-- `BR.OPEN` (R136): branch to the target when `door_open`. -/
def execBrOpen (o : Operands) (s : State) : Host.Outcome State Fault Refusal :=
  concludeStep (.brOpen o) (evaluate false 5 s.inputs) s

/-- `BRN.ANY` (R137): branch to the target when no call is pending. -/
def execBrnAny (o : Operands) (s : State) : Host.Outcome State Fault Refusal :=
  concludeStep (.brnAny o) (evaluate true 0 s.inputs) s

/-- `BRN.BELOW` (R138): branch to the target when not `call_pending_below`. -/
def execBrnBelow (o : Operands) (s : State) : Host.Outcome State Fault Refusal :=
  concludeStep (.brnBelow o) (evaluate true 1 s.inputs) s

/-- `BRN.SAME` (R139): branch to the target when not `call_pending_same`. -/
def execBrnSame (o : Operands) (s : State) : Host.Outcome State Fault Refusal :=
  concludeStep (.brnSame o) (evaluate true 2 s.inputs) s

/-- `BRN.ABOVE` (R140): branch to the target when not `call_pending_above`. -/
def execBrnAbove (o : Operands) (s : State) : Host.Outcome State Fault Refusal :=
  concludeStep (.brnAbove o) (evaluate true 3 s.inputs) s

/-- `BRN.CLOSED` (R141): branch to the target when not `door_closed`. -/
def execBrnClosed (o : Operands) (s : State) : Host.Outcome State Fault Refusal :=
  concludeStep (.brnClosed o) (evaluate true 4 s.inputs) s

/-- `BRN.OPEN` (R142): branch to the target when not `door_open`. -/
def execBrnOpen (o : Operands) (s : State) : Host.Outcome State Fault Refusal :=
  concludeStep (.brnOpen o) (evaluate true 5 s.inputs) s

end Sys2Proof.Machine
end

