-- ==== Sys2Proof/Machine/Fixed.lean ====
section
/-! DEFINITION. The fixed-condition forms (spec/43_branch_fixed.md): index 7 of the multiplexer is constant false. -/

namespace Sys2Proof.Machine

/-- `NEXT` (R150): never branch; the target is still copied to `out`. -/
def execNext (o : Operands) (s : State) : Host.Outcome State Fault Refusal :=
  concludeStep (.next o) (evaluate false 7 s.inputs) s

/-- `JUMP` (R151): always branch to the target. -/
def execJump (o : Operands) (s : State) : Host.Outcome State Fault Refusal :=
  concludeStep (.jump o) (evaluate true 7 s.inputs) s

end Sys2Proof.Machine
end

