-- ==== Sys2Proof/Machine/Reserved.lean ====
section
/-! DEFINITION. The reserved forms (spec/44_reserved.md): index 6 of the multiplexer faults, whatever the inversion. -/

namespace Sys2Proof.Machine

/-- `RSV6` (R160): raise `RESERVED_COND_SEL`. -/
def execRsv6 (o : Operands) (s : State) : Host.Outcome State Fault Refusal :=
  concludeStep (.rsv6 o) (evaluate false 6 s.inputs) s

/-- `RSV6N` (R161): raise `RESERVED_COND_SEL`; the inversion does not rescue the index. -/
def execRsv6n (o : Operands) (s : State) : Host.Outcome State Fault Refusal :=
  concludeStep (.rsv6n o) (evaluate true 6 s.inputs) s

end Sys2Proof.Machine
end

