-- ==== Sys2Proof/Machine/Dispatch.lean ====
section
/-! DEFINITION. One arm per instruction form (spec/30_encoding.md R70), each a call of its meaning. -/

namespace Sys2Proof.Machine

def exec (i : Instr) (s : State) : Host.Outcome State Fault Refusal :=
  match i with
  | .brAny o => Sys2Proof.Machine.execBrAny o s
  | .brBelow o => Sys2Proof.Machine.execBrBelow o s
  | .brSame o => Sys2Proof.Machine.execBrSame o s
  | .brAbove o => Sys2Proof.Machine.execBrAbove o s
  | .brClosed o => Sys2Proof.Machine.execBrClosed o s
  | .brOpen o => Sys2Proof.Machine.execBrOpen o s
  | .rsv6 o => Sys2Proof.Machine.execRsv6 o s
  | .next o => Sys2Proof.Machine.execNext o s
  | .brnAny o => Sys2Proof.Machine.execBrnAny o s
  | .brnBelow o => Sys2Proof.Machine.execBrnBelow o s
  | .brnSame o => Sys2Proof.Machine.execBrnSame o s
  | .brnAbove o => Sys2Proof.Machine.execBrnAbove o s
  | .brnClosed o => Sys2Proof.Machine.execBrnClosed o s
  | .brnOpen o => Sys2Proof.Machine.execBrnOpen o s
  | .rsv6n o => Sys2Proof.Machine.execRsv6n o s
  | .jump o => Sys2Proof.Machine.execJump o s

end Sys2Proof.Machine
end

