-- ==== Sys2Proof/Machine/HostOps.lean ====
section
/-! DEFINITION. The host's transactions `reset` and `load`, and the introspection reads
(spec/70_reset_and_hazards.md R190, spec/41_engine.md R121, R125). -/

namespace Sys2Proof.Machine

/-- What `reset()` writes (R190): the store all 0x0000, `pc` 0, `len` 0, `out` all 0; `fault` is not
written (R36). -/
def clearEngine (s : State) : State :=
  { s with store := [], pc := 0, len := 0, out := zeroFields }

/-- What `load(p)` writes (R121, R122): the first `n` entries and `len`; nothing else (D14). -/
def installProgram (p : List Record) (s : State) : State :=
  { s with store := Memory.writeProgram s.store 0 p, len := BitVec.ofNat 9 p.length }

/-- `reset()` (R190): refused after a fault. -/
def hostReset (s : State) : Host.Outcome State Fault Refusal :=
  if s.fault.active then .refused .opAfterFault else .next (clearEngine s)

/-- `load(p)` (R121): the fault state is checked first, then the length (R177). -/
def hostLoad (p : List Record) (s : State) : Host.Outcome State Fault Refusal :=
  if s.fault.active then .refused .opAfterFault
  else if programFits p then .next (installProgram p s)
  else .refused .loadTooLong

/-! ## Introspection (R125): pure reads, allowed in every state (R53, R174) -/

/-- `currentProgramCounter()`. -/
def currentProgramCounter (s : State) : StoreIndex := s.pc

/-- `currentProgramLength()`. -/
def currentProgramLength (s : State) : Len := s.len

/-- `wordAt(i)`: refused for `i ≥ 256` (R44, R176). -/
def wordAt (s : State) (i : Nat) : Except Refusal Word :=
  if i < Config.storeDepth then .ok (Memory.read s.store i) else .error .indexOutOfRange

/-- The read of the control-output register as 16 bits (R28, R125). -/
def readOut (s : State) : Word := s.out.word

/-- The read of the fault register (R29, R125). -/
def readFault (s : State) : FaultReg := s.fault

/-- The number of a reason (R29, R170). -/
def FaultReason.code : FaultReason → Nat
  | .none              => 0
  | .reservedCondSel   => 1
  | .condSelOutOfRange => 2

/-- What the host is given for a step that led to this state (R32): the Output record, or the fault
outcome (R172: "no Output is returned"). -/
def stepResult (s : State) : Except FaultReason Fields :=
  if s.fault.active then .error s.fault.reason else .ok s.out

end Sys2Proof.Machine
end

