-- ==== Sys2Proof/Machine/Engine.lean ====
section
/-! DEFINITION. The engine: one transaction of the host is one atomic change of state
(spec/20_memory.md R45, R46; spec/41_engine.md R111). -/

namespace Sys2Proof.Machine

/-- `step(inputs)` (R111): refused after a fault (R120); otherwise the fetched word is decoded and its
form executed on this step's snapshot. -/
def hostStep (inp : ConditionInputs) (s : State) : Host.Outcome State Fault Refusal :=
  if s.fault.active then .refused .stepAfterFault
  else exec (fetchInstr s) { s with inputs := inp }

/-- The transaction that takes effect next (R46): the oldest one the host has asked for. Where it has
asked for none, the driving loop goes on "invoking one step per cycle" (R7) with a snapshot of its own
choice (log 6). -/
def nextTransaction (s : State) : Transaction :=
  match s.pending with
  | []     => .step (Config.freeInputs s.draws)
  | t :: _ => t

/-- The state with that transaction taken from the host's list, or the draw counted. -/
def takeTransaction (s : State) : State :=
  match s.pending with
  | []      => { s with draws := s.draws + 1 }
  | _ :: ts => { s with pending := ts }

/-- One transaction (R32, R36). -/
def perform (t : Transaction) (s : State) : Host.Outcome State Fault Refusal :=
  match t with
  | .reset    => hostReset s
  | .load p   => hostLoad p s
  | .step inp => hostStep inp s

/-- `s` with a word stored where the next step fetches, and with that step asked for, on the snapshot
that stands at the input port (log 9). -/
def placeWord (w : Word) (s : State) : State :=
  { s with store := Memory.write s.store s.pc.toNat w, pending := .step s.inputs :: s.pending }

end Sys2Proof.Machine
end

