-- ==== Sys2Proof/Machine/Step.lean ====
section
/-! DEFINITION. One step of the machine: the next transaction, whole (spec/20_memory.md R45). -/

namespace Sys2Proof.Machine

/-- The machine's step: it performs the host's next transaction. -/
def step (s : State) : Host.Outcome State Fault Refusal :=
  perform (nextTransaction s) (takeTransaction s)

/-- `s` with the opcode table's bits stored so that the very next step fetches and runs them (log 9). -/
def State.withFetchWord (s : State) (nbits w : Nat) : State :=
  placeWord (tableWord nbits w) s

end Sys2Proof.Machine
end

