-- ==== Sys2Proof/Machine/Assembler.lean ====
section
/-! DEFINITION. The spec's assembler notation and pseudo-instructions (spec/30_encoding.md R74, R75; the
spec's own, D12). A line is kept as its parts, and `AsmLine.text` writes it out (log 18). -/

namespace Sys2Proof.Machine

/-- The flags of R74. -/
inductive AsmFlag where
  | up | down | opened | rst
  deriving DecidableEq, Repr

/-- `<target>`: a decimal number or a label (R74). -/
inductive AsmTarget where
  | number (n : Nat)
  | label (name : String)
  deriving DecidableEq, Repr

/-- `<mnemonic> <target> [, <flag>]*` (R74). -/
structure AsmLine where
  mnemonic : String
  target   : AsmTarget
  flags    : List AsmFlag
  deriving DecidableEq, Repr

/-- The mnemonic of a form (R70). -/
def Instr.mnemonic : Instr → String
  | .brAny _     => "BR.ANY"
  | .brBelow _   => "BR.BELOW"
  | .brSame _    => "BR.SAME"
  | .brAbove _   => "BR.ABOVE"
  | .brClosed _  => "BR.CLOSED"
  | .brOpen _    => "BR.OPEN"
  | .rsv6 _      => "RSV6"
  | .next _      => "NEXT"
  | .brnAny _    => "BRN.ANY"
  | .brnBelow _  => "BRN.BELOW"
  | .brnSame _   => "BRN.SAME"
  | .brnAbove _  => "BRN.ABOVE"
  | .brnClosed _ => "BRN.CLOSED"
  | .brnOpen _   => "BRN.OPEN"
  | .rsv6n _     => "RSV6N"
  | .jump _      => "JUMP"

/-- The form a mnemonic names (R70). -/
def formOfMnemonic (m : String) : Option (Operands → Instr) :=
  if m = "BR.ANY" then some .brAny
  else if m = "BR.BELOW" then some .brBelow
  else if m = "BR.SAME" then some .brSame
  else if m = "BR.ABOVE" then some .brAbove
  else if m = "BR.CLOSED" then some .brClosed
  else if m = "BR.OPEN" then some .brOpen
  else if m = "RSV6" then some .rsv6
  else if m = "NEXT" then some .next
  else if m = "BRN.ANY" then some .brnAny
  else if m = "BRN.BELOW" then some .brnBelow
  else if m = "BRN.SAME" then some .brnSame
  else if m = "BRN.ABOVE" then some .brnAbove
  else if m = "BRN.CLOSED" then some .brnClosed
  else if m = "BRN.OPEN" then some .brnOpen
  else if m = "RSV6N" then some .rsv6n
  else if m = "JUMP" then some .jump
  else none

/-- The command bits of a flag list: "An absent flag is 0" (R74). -/
def flagOperands (target : StoreIndex) (flags : List AsmFlag) : Operands where
  jumpAddr     := target
  reqMoveUp    := flags.contains .up
  reqMoveDown  := flags.contains .down
  reqDoorState := flags.contains .opened
  reqReset     := flags.contains .rst

/-- The index a label stands for: the first entry with its name. -/
def labelIndex : List (String × Nat) → String → Option Nat
  | [],             _    => none
  | (l, a) :: rest, name => if l = name then some a else labelIndex rest name

/-- The number a target stands for. -/
def targetNumber (labels : List (String × Nat)) : AsmTarget → Option Nat
  | .number n   => some n
  | .label name => labelIndex labels name

/-- Assemble one line (R74): no mnemonic other than the sixteen, no target other than 0 to 255. -/
def assemble (labels : List (String × Nat)) (l : AsmLine) : Option Instr :=
  match targetNumber labels l.target, formOfMnemonic l.mnemonic with
  | some n, some form => if n < 256 then some (form (flagOperands (BitVec.ofNat 8 n) l.flags)) else none
  | _, _ => none

/-- The flags that are 1, in R74's order. -/
def operandFlags (o : Operands) : List AsmFlag :=
  (if o.reqMoveUp then [.up] else []) ++ (if o.reqMoveDown then [.down] else []) ++
    (if o.reqDoorState then [.opened] else []) ++ (if o.reqReset then [.rst] else [])

/-- The line that stands for an instruction (R74). -/
def disassemble (i : Instr) : AsmLine where
  mnemonic := Instr.mnemonic i
  target   := .number i.operands.jumpAddr.toNat
  flags    := operandFlags i.operands

/-- The spelling of a flag (R74). -/
def AsmFlag.text : AsmFlag → String
  | .up => "UP" | .down => "DOWN" | .opened => "OPEN" | .rst => "RST"

/-- The line as R74 writes it, for example `JUMP 0, OPEN, RST`. -/
def AsmLine.text (l : AsmLine) : String :=
  l.flags.foldl (fun t f => t ++ ", " ++ f.text)
    (l.mnemonic ++ " " ++ match l.target with | .number n => Nat.repr n | .label name => name)

/-- The conditions that `WAITUNTIL` and `WAITWHILE` name (R75). -/
inductive WaitCond where
  | any | below | same | above | closed | opened
  deriving DecidableEq, Repr

/-- The pseudo-instructions (R75). -/
inductive PseudoLine where
  | fall (flags : List AsmFlag)
  | waitUntil (c : WaitCond) (flags : List AsmFlag)
  | waitWhile (c : WaitCond) (flags : List AsmFlag)
  deriving DecidableEq, Repr

/-- `BR.<c>` (R75). -/
def branchIf : WaitCond → Operands → Instr
  | .any    => .brAny
  | .below  => .brBelow
  | .same   => .brSame
  | .above  => .brAbove
  | .closed => .brClosed
  | .opened => .brOpen

/-- `BRN.<c>` (R75). -/
def branchUnless : WaitCond → Operands → Instr
  | .any    => .brnAny
  | .below  => .brnBelow
  | .same   => .brnSame
  | .above  => .brnAbove
  | .closed => .brnClosed
  | .opened => .brnOpen

/-- What a pseudo-instruction at index `a` assembles to (R75). -/
def expandPseudo (a : StoreIndex) : PseudoLine → Instr
  | .fall flags        => .next (flagOperands (a + 1) flags)
  | .waitUntil c flags => branchUnless c (flagOperands a flags)
  | .waitWhile c flags => branchIf c (flagOperands a flags)

/-! ## A program in the notation: a line of R74 or of R75, with a label of its own or none -/

/-- One source line. -/
structure SourceLine where
  label : Option String
  body  : AsmLine ⊕ PseudoLine
  deriving DecidableEq, Repr

/-- Each label with the index of its line, the first line standing at `first` (log 18). -/
def sourceLabels : Nat → List SourceLine → List (String × Nat)
  | _,     []         => []
  | first, l :: lines =>
    match l.label with
    | some name => (name, first) :: sourceLabels (first + 1) lines
    | none      => sourceLabels (first + 1) lines

/-- Lines from index `first` on; none if one of them does not assemble. DESIGN CHOICE (log 21): R74 and R75
give a line past index 255 no address. Here it still assembles, a pseudo-instruction there taking its
address modulo 256, while a target label on such a line assembles to nothing. -/
def assembleLines (labels : List (String × Nat)) : Nat → List SourceLine → Option (List Instr)
  | _,     []         => some []
  | first, l :: lines =>
    let head := match l.body with
      | .inl line   => assemble labels line
      | .inr pseudo => some (expandPseudo (BitVec.ofNat 8 first) pseudo)
    match head, assembleLines labels (first + 1) lines with
    | some i, some is => some (i :: is)
    | _, _            => none

/-- A program whose first line stands at index 0, where `load` puts it (R121). More than 256 lines assemble
(log 21), but `load` refuses such a program (R121, LOAD_TOO_LONG). -/
def assembleSource (lines : List SourceLine) : Option (List Instr) :=
  assembleLines (sourceLabels 0 lines) 0 lines

end Sys2Proof.Machine
end

