-- ==== Sys2Proof/Machine/Boot.lean ====
section
/-! DEFINITION. Boot (spec/70_reset_and_hazards.md R195 to R197). `PROGRAM_IMAGE` is an argument (R9, D16,
log 10); the Default Program of R196 is its default. -/

namespace Sys2Proof.Machine

/-- One row of R196's table, in its column order: jump, cond_sel, inv, up, down, door, reset. -/
def programRow (jump sel inv up down door rst : Nat) : Record where
  jumpAddr     := jump
  reqMoveUp    := up
  reqMoveDown  := down
  reqDoorState := door
  reqReset     := rst
  condSel      := sel
  condInv      := inv

/-- The Default Program (R196): F = 0, T = 1, CLOSED = 0, OPEN = 1. -/
def defaultProgram : List Record :=
  --          jump sel inv up dn door rst
  [ programRow  2   0   0  0  0  1  0    -- 0
  , programRow  0   7   1  0  0  1  0    -- 1
  , programRow  3   7   0  0  0  0  0    -- 2
  , programRow  3   4   1  0  0  0  0    -- 3
  , programRow  8   1   0  0  0  0  0    -- 4
  , programRow 11   3   0  0  0  0  0    -- 5
  , programRow 13   2   0  0  0  0  0    -- 6
  , programRow  4   7   1  0  0  0  0    -- 7
  , programRow  9   7   0  0  1  0  0    -- 8
  , programRow  9   2   1  0  1  0  0    -- 9
  , programRow 14   7   1  0  0  0  0    -- 10
  , programRow 12   7   0  1  0  0  0    -- 11
  , programRow 12   2   1  1  0  0  0    -- 12
  , programRow 14   7   1  0  0  0  0    -- 13
  , programRow 15   7   0  0  0  1  0    -- 14
  , programRow 15   5   1  0  0  1  0    -- 15
  , programRow  0   7   1  0  0  1  1 ]  -- 16

/-- Power-on followed by `load(PROGRAM_IMAGE)` (R195, steps 1 and 2). -/
def boot (image : List Record := defaultProgram) : Host.Outcome State Fault Refusal :=
  hostLoad image State.reset

/-- The same boot order as transactions of the host: `reset()`, then `load(PROGRAM_IMAGE)` (R124, R195). -/
def bootTransactions (image : List Record := defaultProgram) : List Transaction :=
  [.reset, .load image]

end Sys2Proof.Machine
end

