-- ==== Sys2Proof/Safety.lean ====
section
/-! DEFINITION. The terms in which claims speak of a good state and of a safe run
(spec/10_state.md R24, R27, spec/60_exceptions.md R172, spec/70_reset_and_hazards.md R201). -/

namespace Sys2Proof.Machine

/-- The fault register tells the truth: inactive, it reads as 0 (R29); active, it records the reserved
word at the unchanged `pc` (R172), the only word whose execution faults (R171). -/
def FaultReg.consistent (s : State) : Bool :=
  if s.fault.active then
    s.fault.reason == .reservedCondSel && s.fault.fpc == s.pc && s.fault.fword == fetchWord s &&
      isReserved s.fault.fword
  else s.fault == noFault

/-- The machine's invariant: the store is in canonical form (log 2), `len` holds a legal value (R27), and
the fault register is consistent. -/
def State.Inv (s : State) : Prop :=
  Memory.wf s.store = true ∧ s.len.toNat ≤ 256 ∧ FaultReg.consistent s = true

/-- No word the store holds is reserved. -/
def Memory.reservedFree (m : Memory) : Prop := ∀ i, isReserved (Memory.read m i) = false

/-- A transaction that brings no reserved word into the store. -/
def Transaction.reservedFree : Transaction → Prop
  | .reset  => True
  | .load p => ∀ r ∈ p, isReserved r.encode = false
  | .step _ => True

/-- The host's second duty of R201, kept in its strong form: no reserved word in the store, none in a
pending `load`, and no fault so far. -/
def State.ReservedFree (s : State) : Prop :=
  s.fault.active = false ∧ Memory.reservedFree s.store ∧ ∀ t ∈ s.pending, t.reservedFree

/-! ## Terms of the claims about one step -/

/-- The Output record of a form with these operands, `cond_sel` and `cond_inv`, field by field (R28, R116). -/
def outputOf (o : Operands) (sel : CondSel) (inv : Bool) : Fields where
  jumpAddr     := o.jumpAddr
  reqMoveUp    := o.reqMoveUp
  reqMoveDown  := o.reqMoveDown
  reqDoorState := o.reqDoorState
  reqReset     := o.reqReset
  condSel      := sel
  condInv      := inv

/-- `s` with `out` set to `output` and `pc` to `target` if taken, else to `(pc + 1) mod 256`, in natural
numbers (R115, R116); every other field as in `s`. -/
def branched (target : StoreIndex) (taken : Bool) (output : Fields) (s : State) : State :=
  { s with
    pc := if taken then target else BitVec.ofNat 8 ((s.pc.toNat + 1) % 256)
    out := output }

/-- `s` with the fault register set as R172 says; every other field as in `s`. -/
def faulted (reason : FaultReason) (w : Word) (s : State) : State :=
  { s with fault := { active := true, reason := reason, fpc := s.pc, fword := w } }

end Sys2Proof.Machine
end

