-- ==== Sys2Proof/Certificates/Slice0/Obligations.lean ====
section
/-! DEFINITION. The statements for the provers, from the numbered rules of spec/. -/

open Sys2Proof Sys2Proof.Machine

/-- R65: `decode(w)`, total over all words, with the field positions written as arithmetic on the word's number. -/
def Obligations.DecodeUnpacksTheSevenFields : Prop :=
  ∀ w : Word,
    (decodeFields w).jumpAddr.toNat = w.toNat % 256 ∧
    (decodeFields w).reqMoveUp = decide (w.toNat / 256 % 2 = 1) ∧
    (decodeFields w).reqMoveDown = decide (w.toNat / 512 % 2 = 1) ∧
    (decodeFields w).reqDoorState = decide (w.toNat / 1024 % 2 = 1) ∧
    (decodeFields w).reqReset = decide (w.toNat / 2048 % 2 = 1) ∧
    (decodeFields w).condSel.toNat = w.toNat / 4096 % 8 ∧
    (decodeFields w).condInv = decide (w.toNat / 32768 % 2 = 1) ∧
    (decode w).fields = decodeFields w

/-- R66: `encode(i)`, out-of-range fields silently truncated, never failing. -/
def Obligations.EncodeKeepsOnlyTheLowBits : Prop :=
  ∀ r : Record, r.encode.toNat =
    r.jumpAddr % 256 + 256 * (r.reqMoveUp % 2) + 512 * (r.reqMoveDown % 2) +
      1024 * (r.reqDoorState % 2) + 2048 * (r.reqReset % 2) + 4096 * (r.condSel % 8) +
      32768 * (r.condInv % 2)

/-- R67, both sentences and the examples. -/
def Obligations.RecordRoundTrip : Prop :=
  (∀ r : Record, r.wellFormed = true → (decodeFields r.encode).toRecord = r) ∧
  (∀ r : Record, (decodeFields r.encode).toRecord = r.truncated) ∧
  (∀ r : Record, r.jumpAddr = 258 → r.condSel = 9 →
    (decodeFields r.encode).jumpAddr = 2 ∧ (decodeFields r.encode).condSel = 1)

/-- Every instruction and every word round-trips. R68 is marked by the spec as derived from R60, R65 and R66. -/
def Obligations.DecodeAndEncodeAreInverse : Prop :=
  (∀ i : Instr, decode (encode i) = i) ∧
  (∀ w : Word, encode (decode w) = w) ∧
  Function.Injective decode

/-- One layout serves the word, the `out` register and the host's record (R28, R60, R66). -/
def Obligations.TheThreeEncodersAgree : Prop :=
  ∀ i : Instr, encode i = i.fields.word ∧ encode i = i.fields.toRecord.encode

/-- The opcode map: the sixteen forms partition the words. The split into named forms is the spec's decision D12. -/
def Obligations.OpcodeMapPartitionsTheWords : Prop :=
  ∀ w : Word,
    (decode w).opcode = w.extractLsb' 12 4 ∧
    w &&& 0xF000#16 = (decode w).opcode.setWidth 16 <<< 12 ∧
    (decode w).operands = operandsOf w ∧
    (decode w).condSel = w.extractLsb' 12 3 ∧
    (decode w).condInv = w.getLsbD 15 ∧
    (isReserved w = true ↔ w &&& 0x7000#16 = 0x6000#16) ∧
    (isReserved w = true ↔
      decode w = .rsv6 (operandsOf w) ∨ decode w = .rsv6n (operandsOf w))

/-- A few words bit by bit: inv, sel, rodu, target. -/
def Obligations.WrittenWordsDecode : Prop :=
  decode 0b0000_0100_00000010#16 = .brAny ⟨2, false, false, true, false⟩ ∧
  decode 0b0001_0010_00110100#16 = .brBelow ⟨52, false, true, false, false⟩ ∧
  decode 0b0100_0001_00100000#16 = .brClosed ⟨32, true, false, false, false⟩ ∧
  decode 0b0110_1010_00101100#16 = .rsv6 ⟨44, false, true, false, true⟩ ∧
  decode 0b0111_0011_00000000#16 = .next ⟨0, true, true, false, false⟩ ∧
  decode 0b1101_0100_00001111#16 = .brnOpen ⟨15, false, false, true, false⟩ ∧
  decode 0b1110_0000_00000000#16 = .rsv6n ⟨0, false, false, false, false⟩ ∧
  decode 0b1111_1100_00000000#16 = .jump ⟨0, false, false, true, true⟩

/-- R74, the spec's own notation (D12); what a label stands for is log 18. -/
def Obligations.AssemblerReadsBackEveryInstruction : Prop :=
  ∀ labels : List (String × Nat),
    (∀ i : Instr, assemble labels (disassemble i) = some i) ∧
    (∀ (l : AsmLine) (n : Nat), targetNumber labels l.target = some n → 256 ≤ n →
      assemble labels l = none) ∧
    (∀ l : AsmLine, targetNumber labels l.target = none → assemble labels l = none)

/-- R95's pseudocode, index by index (with R92, R94 and R96). -/
def Obligations.SelectorTable : Prop :=
  ∀ (v : Bool) (x : ConditionInputs),
    evaluate v 0 x = .ok ((x.callPendingBelow || x.callPendingSame || x.callPendingAbove) ^^ v) ∧
    evaluate v 1 x = .ok (x.callPendingBelow ^^ v) ∧
    evaluate v 2 x = .ok (x.callPendingSame ^^ v) ∧
    evaluate v 3 x = .ok (x.callPendingAbove ^^ v) ∧
    evaluate v 4 x = .ok (x.doorClosed ^^ v) ∧
    evaluate v 5 x = .ok (x.doorOpen ^^ v) ∧
    evaluate v 6 x = .error .reservedCondSel ∧
    evaluate v 7 x = .ok (false ^^ v) ∧
    evaluate true 7 x = .ok true ∧ evaluate false 7 x = .ok false

/-- R96, R97 and R170. The treatment of an index of 8 or more is the spec's decision D13 (log 16). -/
def Obligations.SelectorFailsExactlyOnBadIndices : Prop :=
  (∀ (v : Bool) (index : Nat) (x : ConditionInputs),
    (evaluate v index x = .error .reservedCondSel ↔ index = 6) ∧
    (evaluate v index x = .error .condSelOutOfRange ↔ 8 ≤ index) ∧
    ((∃ b, evaluate v index x = .ok b) ↔ index < 8 ∧ index ≠ 6)) ∧
  (∀ (v : Bool) (sel : CondSel) (x : ConditionInputs),
    evaluate v sel.toNat x ≠ .error .condSelOutOfRange)

/-- R131: encoding, effect, frame and completion. (`out` as a register is the spec's decision D3, log 11.) -/
def Obligations.BrAnyBranchesOnAnyCall : Prop :=
  (∀ w : Word, w &&& 0xF000#16 = 0x0000#16 → decode w = .brAny (operandsOf w)) ∧
  ∀ (o : Operands) (s : State), exec (.brAny o) s = .next
    (branched o.jumpAddr
      (s.inputs.callPendingBelow || s.inputs.callPendingSame || s.inputs.callPendingAbove) (outputOf o 0 false) s)

/-- R132: encoding, effect, frame and completion. (`out` as a register is the spec's decision D3, log 11.) -/
def Obligations.BrBelowBranchesOnSetSignal : Prop :=
  (∀ w : Word, w &&& 0xF000#16 = 0x1000#16 → decode w = .brBelow (operandsOf w)) ∧
  ∀ (o : Operands) (s : State), exec (.brBelow o) s = .next
    (branched o.jumpAddr
      (s.inputs.callPendingBelow) (outputOf o 1 false) s)

/-- R133: encoding, effect, frame and completion. (`out` as a register is the spec's decision D3, log 11.) -/
def Obligations.BrSameBranchesOnSetSignal : Prop :=
  (∀ w : Word, w &&& 0xF000#16 = 0x2000#16 → decode w = .brSame (operandsOf w)) ∧
  ∀ (o : Operands) (s : State), exec (.brSame o) s = .next
    (branched o.jumpAddr
      (s.inputs.callPendingSame) (outputOf o 2 false) s)

/-- R134: encoding, effect, frame and completion. (`out` as a register is the spec's decision D3, log 11.) -/
def Obligations.BrAboveBranchesOnSetSignal : Prop :=
  (∀ w : Word, w &&& 0xF000#16 = 0x3000#16 → decode w = .brAbove (operandsOf w)) ∧
  ∀ (o : Operands) (s : State), exec (.brAbove o) s = .next
    (branched o.jumpAddr
      (s.inputs.callPendingAbove) (outputOf o 3 false) s)

/-- R135: encoding, effect, frame and completion. (`out` as a register is the spec's decision D3, log 11.) -/
def Obligations.BrClosedBranchesOnSetSignal : Prop :=
  (∀ w : Word, w &&& 0xF000#16 = 0x4000#16 → decode w = .brClosed (operandsOf w)) ∧
  ∀ (o : Operands) (s : State), exec (.brClosed o) s = .next
    (branched o.jumpAddr
      (s.inputs.doorClosed) (outputOf o 4 false) s)

/-- R136: encoding, effect, frame and completion. (`out` as a register is the spec's decision D3, log 11.) -/
def Obligations.BrOpenBranchesOnSetSignal : Prop :=
  (∀ w : Word, w &&& 0xF000#16 = 0x5000#16 → decode w = .brOpen (operandsOf w)) ∧
  ∀ (o : Operands) (s : State), exec (.brOpen o) s = .next
    (branched o.jumpAddr
      (s.inputs.doorOpen) (outputOf o 5 false) s)

/-- R137: encoding, effect, frame and completion. (`out` as a register is the spec's decision D3, log 11.) -/
def Obligations.BrnAnyBranchesOnNoCall : Prop :=
  (∀ w : Word, w &&& 0xF000#16 = 0x8000#16 → decode w = .brnAny (operandsOf w)) ∧
  ∀ (o : Operands) (s : State), exec (.brnAny o) s = .next
    (branched o.jumpAddr
      (!(s.inputs.callPendingBelow || s.inputs.callPendingSame || s.inputs.callPendingAbove)) (outputOf o 0 true) s)

/-- R138: encoding, effect, frame and completion. (`out` as a register is the spec's decision D3, log 11.) -/
def Obligations.BrnBelowBranchesOnClearSignal : Prop :=
  (∀ w : Word, w &&& 0xF000#16 = 0x9000#16 → decode w = .brnBelow (operandsOf w)) ∧
  ∀ (o : Operands) (s : State), exec (.brnBelow o) s = .next
    (branched o.jumpAddr
      (!s.inputs.callPendingBelow) (outputOf o 1 true) s)

/-- R139: encoding, effect, frame and completion. (`out` as a register is the spec's decision D3, log 11.) -/
def Obligations.BrnSameBranchesOnClearSignal : Prop :=
  (∀ w : Word, w &&& 0xF000#16 = 0xA000#16 → decode w = .brnSame (operandsOf w)) ∧
  ∀ (o : Operands) (s : State), exec (.brnSame o) s = .next
    (branched o.jumpAddr
      (!s.inputs.callPendingSame) (outputOf o 2 true) s)

/-- R140: encoding, effect, frame and completion. (`out` as a register is the spec's decision D3, log 11.) -/
def Obligations.BrnAboveBranchesOnClearSignal : Prop :=
  (∀ w : Word, w &&& 0xF000#16 = 0xB000#16 → decode w = .brnAbove (operandsOf w)) ∧
  ∀ (o : Operands) (s : State), exec (.brnAbove o) s = .next
    (branched o.jumpAddr
      (!s.inputs.callPendingAbove) (outputOf o 3 true) s)

/-- R141: encoding, effect, frame and completion. (`out` as a register is the spec's decision D3, log 11.) -/
def Obligations.BrnClosedBranchesOnClearSignal : Prop :=
  (∀ w : Word, w &&& 0xF000#16 = 0xC000#16 → decode w = .brnClosed (operandsOf w)) ∧
  ∀ (o : Operands) (s : State), exec (.brnClosed o) s = .next
    (branched o.jumpAddr
      (!s.inputs.doorClosed) (outputOf o 4 true) s)

/-- R142: encoding, effect, frame and completion. (`out` as a register is the spec's decision D3, log 11.) -/
def Obligations.BrnOpenBranchesOnClearSignal : Prop :=
  (∀ w : Word, w &&& 0xF000#16 = 0xD000#16 → decode w = .brnOpen (operandsOf w)) ∧
  ∀ (o : Operands) (s : State), exec (.brnOpen o) s = .next
    (branched o.jumpAddr
      (!s.inputs.doorOpen) (outputOf o 5 true) s)

/-- R150: encoding, effect, frame and completion. (`out` as a register is the spec's decision D3, log 11.) -/
def Obligations.NextFallsThrough : Prop :=
  (∀ w : Word, w &&& 0xF000#16 = 0x7000#16 → decode w = .next (operandsOf w)) ∧
  ∀ (o : Operands) (s : State), exec (.next o) s = .next
    (branched o.jumpAddr
      (false) (outputOf o 7 false) s)

/-- R151: encoding, effect, frame and completion. (`out` as a register is the spec's decision D3, log 11.) -/
def Obligations.JumpAlwaysBranches : Prop :=
  (∀ w : Word, w &&& 0xF000#16 = 0xF000#16 → decode w = .jump (operandsOf w)) ∧
  ∀ (o : Operands) (s : State), exec (.jump o) s = .next
    (branched o.jumpAddr
      (true) (outputOf o 7 true) s)

/-- R160, R161. The fault register is the spec's decision D4; answering it as a next state is the model's choice, log 7. -/
def Obligations.ReservedFormsTakeTheFault : Prop :=
  (∀ w : Word, w &&& 0xF000#16 = 0x6000#16 → decode w = .rsv6 (operandsOf w)) ∧
  (∀ w : Word, w &&& 0xF000#16 = 0xE000#16 → decode w = .rsv6n (operandsOf w)) ∧
  ∀ (o : Operands) (s : State),
    exec (.rsv6 o) s = .next (faulted .reservedCondSel (encode (.rsv6 o)) s) ∧
    exec (.rsv6n o) s = .next (faulted .reservedCondSel (encode (.rsv6n o)) s)

/-- R111 steps 3 to 5 and R130: the named forms add no semantics. The fault branch rests on D4 and log 7. -/
def Obligations.EveryFormIsTheOneControlCycle : Prop :=
  ∀ (i : Instr) (s : State),
    (∀ taken, evaluate i.condInv i.condSel.toNat s.inputs = .ok taken →
      exec i s = .next (branched i.operands.jumpAddr taken i.fields s)) ∧
    (∀ f, evaluate i.condInv i.condSel.toNat s.inputs = .error f →
      exec i s = .next (faulted f.reason (encode i) s))

/-- The frame of every form: R41 and R118, with R172 for the reserved forms. -/
def Obligations.InstructionsNeverTouchMemory : Prop :=
  ∀ (i : Instr) (s t : State), exec i s = .next t →
    (∀ a : Nat, wordAt t a = wordAt s a) ∧
    t.len = s.len ∧ t.inputs = s.inputs ∧ t.pending = s.pending ∧ t.draws = s.draws ∧
    (i.condSel ≠ 6 → t.fault = s.fault) ∧
    (i.condSel = 6 → t.pc = s.pc ∧ t.out = s.out) ∧
    (∀ m : Memory, exec i { s with store := m } = .next { t with store := m })

/-- R75, the spec's own pseudo-instructions (D12). -/
def Obligations.WaitLoopsHoldAndRelease : Prop :=
  ∀ (a : StoreIndex) (flags : List AsmFlag) (s : State), s.pc = a →
    exec (expandPseudo a (.fall flags)) s =
      .next (branched a false (outputOf (flagOperands (a + 1) flags) 7 false) s) ∧
    (∀ (c : WaitCond) (sel : CondSel) (holds : Bool),
      sel.toNat = (match c with
        | .any => 0 | .below => 1 | .same => 2 | .above => 3 | .closed => 4 | .opened => 5) →
      evaluate false sel.toNat s.inputs = .ok holds →
      exec (expandPseudo a (.waitUntil c flags)) s =
        .next (branched a (!holds) (outputOf (flagOperands a flags) sel true) s) ∧
      exec (expandPseudo a (.waitWhile c flags)) s =
        .next (branched a holds (outputOf (flagOperands a flags) sel false) s))

/-- R111 to R113. The host's list is the model's own (log 5), the free snapshot is log 6. -/
def Obligations.StepRunsTheDecodedInstruction : Prop :=
  ∀ s : State, s.fault.active = false →
    (∀ (inp : ConditionInputs) (rest : List Transaction), s.pending = .step inp :: rest →
      step s = exec (decode (Memory.read s.store s.pc.toNat))
        { s with inputs := inp, pending := rest }) ∧
    (s.pending = [] →
      step s = exec (decode (Memory.read s.store s.pc.toNat))
        { s with inputs := Config.freeInputs s.draws, draws := s.draws + 1 })

/-- R112 and R49 for the model's own `withFetchWord` (log 9). -/
def Obligations.PlacedWordRunsNext : Prop :=
  ∀ (s : State) (w : Nat), Memory.wf s.store = true → s.fault.active = false →
    step (s.withFetchWord 16 w) =
      exec (decode (BitVec.ofNat 16 w))
        { s with store := Memory.write s.store s.pc.toNat (BitVec.ofNat 16 w) }

/-- R115, over the raw bits of the fetched word. -/
def Obligations.StepFollowsTheBranchRule : Prop :=
  ∀ (s : State) (inp : ConditionInputs),
    s.fault.active = false → nextTransaction s = .step inp →
    ∀ taken, evaluate ((fetchWord s).getLsbD 15) ((fetchWord s).extractLsb' 12 3).toNat inp = .ok taken →
    ∃ t, step s = .next t ∧
      t.pc = (if taken then (fetchWord s).extractLsb' 0 8
              else BitVec.ofNat 8 ((s.pc.toNat + 1) % 256)) ∧
      (taken = true → (fetchWord s).extractLsb' 0 8 = s.pc → t.pc = s.pc) ∧
      (taken = false → s.pc = 255 → t.pc = 0)

/-- R116, R28, R32. The register is the spec's decision D3 (log 11). -/
def Obligations.SuccessfulStepLatchesTheFetchedWord : Prop :=
  ∀ (s : State) (inp : ConditionInputs),
    s.fault.active = false → nextTransaction s = .step inp →
    isReserved (fetchWord s) = false →
    ∃ t, step s = .next t ∧ t.out = decodeFields (fetchWord s) ∧ readOut t = fetchWord s ∧
      stepResult t = .ok (decodeFields (fetchWord s)) ∧ t.fault = s.fault

/-- R117: the output comes entirely from the instruction at the pre-step pc. -/
def Obligations.OutputIgnoresTheInputs : Prop :=
  ∀ (s s' : State) (inp inp' : ConditionInputs) (t t' : State),
    s.fault.active = false → s'.fault.active = false →
    nextTransaction s = .step inp → nextTransaction s' = .step inp' →
    fetchWord s = fetchWord s' →
    step s = .next t → step s' = .next t' → t.fault.active = false → t'.fault.active = false →
    t.out = t'.out ∧
    (s.pc = s'.pc →
      evaluate ((fetchWord s).getLsbD 15) ((fetchWord s).extractLsb' 12 3).toNat inp =
        evaluate ((fetchWord s).getLsbD 15) ((fetchWord s).extractLsb' 12 3).toNat inp' →
      t.pc = t'.pc)

/-- R98 and R34, for the model's own input-port field (log 4). -/
def Obligations.EarlierInputsAreNeverRead : Prop :=
  ∀ (s : State) (x inp : ConditionInputs), nextTransaction s = .step inp →
    step { s with inputs := x } = step s

/-- R118, `len` never read as well as never written. -/
def Obligations.StepNeverWritesStoreNorTouchesLen : Prop :=
  ∀ (s t : State) (inp : ConditionInputs), nextTransaction s = .step inp → step s = .next t →
    t.store = s.store ∧ (∀ a : Nat, wordAt t a = wordAt s a) ∧ t.len = s.len ∧
    (∀ l : Len, step { s with len := l } = .next { t with len := l }) ∧
    (t.fault.active = false → t.fault = s.fault) ∧
    (t.fault.active = true → t.pc = s.pc ∧ t.out = s.out)

/-- R36's list, for whichever transaction takes effect; the reads are functions and change nothing. -/
def Obligations.EachOperationWritesOnlyItsOwnState : Prop :=
  ∀ s t : State, step s = .next t →
    (∀ inp, nextTransaction s = .step inp → t.store = s.store ∧ t.len = s.len ∧
      (t.fault = s.fault ∨ (t.pc = s.pc ∧ t.out = s.out))) ∧
    (∀ p, nextTransaction s = .load p → t.pc = s.pc ∧ t.out = s.out ∧ t.fault = s.fault) ∧
    (nextTransaction s = .reset → t.fault = s.fault)

/-- R22's "only legal mutations". -/
def Obligations.ProgramCounterMovesOnlyAsTheRuleAllows : Prop :=
  ∀ s t : State, step s = .next t →
    (∀ inp, nextTransaction s = .step inp →
      (evaluate ((fetchWord s).getLsbD 15) ((fetchWord s).extractLsb' 12 3).toNat inp = .ok true ∧
        t.pc = (fetchWord s).extractLsb' 0 8) ∨
      (evaluate ((fetchWord s).getLsbD 15) ((fetchWord s).extractLsb' 12 3).toNat inp = .ok false ∧
        t.pc = BitVec.ofNat 8 ((s.pc.toNat + 1) % 256)) ∨
      (isReserved (fetchWord s) = true ∧ t.fault.active = true ∧ t.pc = s.pc)) ∧
    (∀ p, nextTransaction s = .load p → t.pc = s.pc) ∧
    (nextTransaction s = .reset → t.pc = 0)

/-- R119. A faulting step as a next state with `fault.active` = 1 is the model's choice, log 7. -/
def Obligations.EveryUnfaultedStepHasASuccessor : Prop :=
  ∀ (s : State) (inp : ConditionInputs), s.fault.active = false → nextTransaction s = .step inp →
    ∃ t, step s = .next t ∧ t.fault.active = isReserved (fetchWord s)

/-- R172, from the fetch on. The fault register is the spec's decision D4; a next state is the model's choice, log 7. -/
def Obligations.FaultEntryIsPrecise : Prop :=
  (∀ (s : State) (inp : ConditionInputs),
    s.fault.active = false → nextTransaction s = .step inp → isReserved (fetchWord s) = true →
    ∃ t, step s = .next t ∧
      t = faulted .reservedCondSel (fetchWord s) { takeTransaction s with inputs := inp } ∧
      stepResult t = .error .reservedCondSel) ∧
  (∀ (w : Word) (s : State),
    enterFault .reservedCondSel w s = faulted .reservedCondSel w s ∧
    enterFault .condSelOutOfRange w s = faulted .condSelOutOfRange w s)

/-- R171. -/
def Obligations.OnlyReservedWordsFault : Prop :=
  ∀ s t : State, s.fault.active = false → step s = .next t →
    (t.fault.active = true ↔
      (∃ inp, nextTransaction s = .step inp) ∧ (fetchWord s).extractLsb' 12 3 = 6#3) ∧
    (t.fault.active = true → t.fault.reason = .reservedCondSel)

/-- R174, R120, R177: the spec's decision D5. -/
def Obligations.FaultedEngineRefusesEveryTransaction : Prop :=
  ∀ s : State, s.fault.active = true →
    (∀ inp, nextTransaction s = .step inp → step s = .refused .stepAfterFault) ∧
    (∀ p, nextTransaction s = .load p → step s = .refused .opAfterFault) ∧
    (nextTransaction s = .reset → step s = .refused .opAfterFault) ∧
    (∀ a : Nat, a < 256 → wordAt s a = .ok (Memory.read s.store a)) ∧
    currentProgramCounter s = s.pc ∧ currentProgramLength s = s.len ∧
    readOut s = s.out.word ∧ readFault s = s.fault

/-- R121 to R123 (the spec's decisions D5, D7, D14 among them). -/
def Obligations.LoadInstallsTheProgram : Prop :=
  ∀ (s : State) (p : List Record) (rest : List Transaction),
    Memory.wf s.store = true → s.fault.active = false → s.pending = .load p :: rest →
    p.length ≤ 256 →
    ∃ t, step s = .next t ∧
      (∀ (k : Nat) (hk : k < p.length), wordAt t k = .ok (p[k]).encode) ∧
      (∀ k : Nat, p.length ≤ k → wordAt t k = wordAt s k) ∧
      t.len.toNat = p.length ∧ t.pc = s.pc ∧ t.out = s.out ∧ t.fault = s.fault ∧
      t.pending = rest

/-- R121, R177: the spec's decisions D5 and D7. -/
def Obligations.OverlongLoadIsRefused : Prop :=
  ∀ (s : State) (p : List Record), nextTransaction s = .load p → 256 < p.length →
    (s.fault.active = false → step s = .refused .loadTooLong) ∧
    (s.fault.active = true → step s = .refused .opAfterFault)

/-- R190, R191. `len` and `out` rest on the spec's decisions D6 and D3 (logs 11, 12). -/
def Obligations.ResetClearsTheEngine : Prop :=
  ∀ (s : State) (rest : List Transaction), s.fault.active = false → s.pending = .reset :: rest →
    ∃ t, step s = .next t ∧ t.pc = 0 ∧ (∀ a : Nat, a < 256 → wordAt t a = .ok 0) ∧
      t.len = 0 ∧ t.out = decodeFields 0 ∧ readOut t = 0 ∧ t.fault = s.fault ∧ t.pending = rest

/-- R192. The values of `len`, `out` and `fault` are the spec's decision D11 (logs 11 to 13). -/
def Obligations.PowerOnState : Prop :=
  currentProgramCounter State.reset = 0 ∧ (∀ a : Nat, a < 256 → wordAt State.reset a = .ok 0) ∧
  currentProgramLength State.reset = 0 ∧ readOut State.reset = 0 ∧
  (readFault State.reset).active = false ∧ (readFault State.reset).reason.code = 0 ∧
  (readFault State.reset).fpc = 0 ∧ (readFault State.reset).fword = 0

/-- R195 and R197 for every image (`PROGRAM_IMAGE` is a parameter: D16, log 10). -/
def Obligations.BootHoldsTheImage : Prop :=
  ∀ (image : List Record), image.length ≤ 256 →
    (∀ s : State, s.fault.active = false → s.pending = bootTransactions image →
      ∃ t, Host.Core.run Sys2Proof.core 2 s = .next t ∧ t.pc = 0 ∧ t.len.toNat = image.length ∧
        (∀ (k : Nat) (hk : k < image.length), wordAt t k = .ok (image[k]).encode) ∧
        (∀ k : Nat, image.length ≤ k → k < 256 → wordAt t k = .ok 0) ∧
        readOut t = 0 ∧ t.fault = s.fault ∧ t.pending = []) ∧
    (∃ t, boot image = .next t ∧ t.pc = 0 ∧ t.len.toNat = image.length ∧
      (∀ (k : Nat) (hk : k < image.length), wordAt t k = .ok (image[k]).encode) ∧
      (∀ k : Nat, image.length ≤ k → k < 256 → wordAt t k = .ok 0))

/-- R200 (with R49 and R50). -/
def Obligations.NextFetchSeesTheLoad : Prop :=
  ∀ (s : State) (p : List Record) (inp : ConditionInputs) (rest : List Transaction),
    Memory.wf s.store = true → s.fault.active = false →
    s.pending = .load p :: .step inp :: rest → p.length ≤ 256 →
    ∃ u, step s = .next u ∧ u.pc = s.pc ∧
      (∀ hk : s.pc.toNat < p.length,
        step u = exec (decode (p[s.pc.toNat]).encode) { u with inputs := inp, pending := rest }) ∧
      (p.length ≤ s.pc.toNat →
        step u = exec (decode (fetchWord s)) { u with inputs := inp, pending := rest })

/-- R193, which the spec marks as derived from R190 and R131. -/
def Obligations.ZeroWordWalksOrReturns : Prop :=
  ∀ (s : State) (inp : ConditionInputs),
    s.fault.active = false → nextTransaction s = .step inp →
    fetchWord s = 0 →
    ∃ t, step s = .next t ∧
      t.pc = (if inp.callPendingBelow || inp.callPendingSame || inp.callPendingAbove then 0
              else BitVec.ofNat 8 ((s.pc.toNat + 1) % 256)) ∧
      readOut t = 0 ∧ t.fault.active = false

/-- R44, R112, R125: the refusal is the spec's decision D10. -/
def Obligations.WordReadsAreBounded : Prop :=
  ∀ s : State,
    (∀ a : Nat, a < 256 → wordAt s a = .ok (Memory.read s.store a)) ∧
    (∀ a : Nat, 256 ≤ a → wordAt s a = .error .indexOutOfRange) ∧
    wordAt s (currentProgramCounter s).toNat = .ok (fetchWord s)

/-- The invariant of every step: reset, load, step and fault entry alike. The canonical form is the model's own (log 2). -/
def Obligations.StepKeepsTheInvariant : Prop :=
  ∀ s t : State, State.Inv s → step s = .next t → State.Inv t

/-- The start of both invariants. -/
def Obligations.PowerOnMeetsTheInvariants : Prop :=
  State.Inv State.reset ∧ State.ReservedFree State.reset

/-- R201's second duty, kept by the host in its strong form, is enough: the engine then runs forever (R119). -/
def Obligations.ReservedFreeEngineNeverFaults : Prop :=
  ∀ s : State, State.ReservedFree s → Memory.wf s.store = true →
    (∀ t, step s = .next t → State.ReservedFree t ∧ Memory.wf t.store = true) ∧
    (∀ inp, nextTransaction s = .step inp → ∃ t, step s = .next t) ∧
    (∀ r, step s = .refused r → r = .loadTooLong)
end

