-- ==== Sys2Proof/Laws/Codec.lean ====
section
/-! SUPPORT. The bits of an encoded word, said once (spec/30_encoding.md R60). -/

namespace Sys2Proof

theorem getLsbD_append_low (c : BitVec 4) (b : BitVec 12) {k : Nat} (hk : k < 12) :
    (c ++ b : Word).getLsbD k = b.getLsbD k := by
  rw [BitVec.getLsbD_append, if_pos hk]

theorem getLsbD_append_high (c : BitVec 4) (b : BitVec 12) (k : Nat) :
    (c ++ b : Word).getLsbD (12 + k) = c.getLsbD k := by
  rw [BitVec.getLsbD_append, if_neg (by omega), Nat.add_sub_cancel_left]

/-- Bits 7 to 0 of the operand bits are the target (R61). -/
theorem Operands.bits_target (o : Operands) {k : Nat} (hk : k < 8) :
    o.bits.getLsbD k = o.jumpAddr.getLsbD k := by
  simp only [Operands.bits, BitVec.getLsbD_append, if_pos hk]

/-- Bits 8 to 11 of the operand bits are the commands UP, DOWN, OPEN, RST (R62). -/
theorem Operands.bits_commands (o : Operands) :
    o.bits.getLsbD 8 = o.reqMoveUp ∧ o.bits.getLsbD 9 = o.reqMoveDown ∧
    o.bits.getLsbD 10 = o.reqDoorState ∧ o.bits.getLsbD 11 = o.reqReset := by
  simp only [Operands.bits, BitVec.getLsbD_append]
  simp

/-- The operands of an opcode over operand bits are those operands. -/
theorem operandsOf_append (c : BitVec 4) (o : Operands) : operandsOf (c ++ o.bits) = o := by
  obtain ⟨h8, h9, h10, h11⟩ := o.bits_commands
  have hj : BitVec.extractLsb' 0 8 (c ++ o.bits : Word) = o.jumpAddr := by
    apply BitVec.eq_of_getLsbD_eq
    intro k hk
    rw [BitVec.getLsbD_extractLsb', Nat.zero_add, getLsbD_append_low c _ (by omega),
      o.bits_target hk]
    simp [hk]
  simp only [operandsOf, hj, getLsbD_append_low c o.bits (show 8 < 12 by omega),
    getLsbD_append_low c o.bits (show 9 < 12 by omega),
    getLsbD_append_low c o.bits (show 10 < 12 by omega),
    getLsbD_append_low c o.bits (show 11 < 12 by omega), h8, h9, h10, h11]

/-! ## The parts of each form (R70's columns) -/

@[simp] theorem Instr.operands_brAny (o : Operands) : (Instr.brAny o).operands = o := rfl
@[simp] theorem Instr.operands_brBelow (o : Operands) : (Instr.brBelow o).operands = o := rfl
@[simp] theorem Instr.operands_brSame (o : Operands) : (Instr.brSame o).operands = o := rfl
@[simp] theorem Instr.operands_brAbove (o : Operands) : (Instr.brAbove o).operands = o := rfl
@[simp] theorem Instr.operands_brClosed (o : Operands) : (Instr.brClosed o).operands = o := rfl
@[simp] theorem Instr.operands_brOpen (o : Operands) : (Instr.brOpen o).operands = o := rfl
@[simp] theorem Instr.operands_rsv6 (o : Operands) : (Instr.rsv6 o).operands = o := rfl
@[simp] theorem Instr.operands_next (o : Operands) : (Instr.next o).operands = o := rfl
@[simp] theorem Instr.operands_brnAny (o : Operands) : (Instr.brnAny o).operands = o := rfl
@[simp] theorem Instr.operands_brnBelow (o : Operands) : (Instr.brnBelow o).operands = o := rfl
@[simp] theorem Instr.operands_brnSame (o : Operands) : (Instr.brnSame o).operands = o := rfl
@[simp] theorem Instr.operands_brnAbove (o : Operands) : (Instr.brnAbove o).operands = o := rfl
@[simp] theorem Instr.operands_brnClosed (o : Operands) : (Instr.brnClosed o).operands = o := rfl
@[simp] theorem Instr.operands_brnOpen (o : Operands) : (Instr.brnOpen o).operands = o := rfl
@[simp] theorem Instr.operands_rsv6n (o : Operands) : (Instr.rsv6n o).operands = o := rfl
@[simp] theorem Instr.operands_jump (o : Operands) : (Instr.jump o).operands = o := rfl
@[simp] theorem Instr.condSel_brAny (o : Operands) : (Instr.brAny o).condSel = 0 := rfl
@[simp] theorem Instr.condSel_brBelow (o : Operands) : (Instr.brBelow o).condSel = 1 := rfl
@[simp] theorem Instr.condSel_brSame (o : Operands) : (Instr.brSame o).condSel = 2 := rfl
@[simp] theorem Instr.condSel_brAbove (o : Operands) : (Instr.brAbove o).condSel = 3 := rfl
@[simp] theorem Instr.condSel_brClosed (o : Operands) : (Instr.brClosed o).condSel = 4 := rfl
@[simp] theorem Instr.condSel_brOpen (o : Operands) : (Instr.brOpen o).condSel = 5 := rfl
@[simp] theorem Instr.condSel_rsv6 (o : Operands) : (Instr.rsv6 o).condSel = 6 := rfl
@[simp] theorem Instr.condSel_next (o : Operands) : (Instr.next o).condSel = 7 := rfl
@[simp] theorem Instr.condSel_brnAny (o : Operands) : (Instr.brnAny o).condSel = 0 := rfl
@[simp] theorem Instr.condSel_brnBelow (o : Operands) : (Instr.brnBelow o).condSel = 1 := rfl
@[simp] theorem Instr.condSel_brnSame (o : Operands) : (Instr.brnSame o).condSel = 2 := rfl
@[simp] theorem Instr.condSel_brnAbove (o : Operands) : (Instr.brnAbove o).condSel = 3 := rfl
@[simp] theorem Instr.condSel_brnClosed (o : Operands) : (Instr.brnClosed o).condSel = 4 := rfl
@[simp] theorem Instr.condSel_brnOpen (o : Operands) : (Instr.brnOpen o).condSel = 5 := rfl
@[simp] theorem Instr.condSel_rsv6n (o : Operands) : (Instr.rsv6n o).condSel = 6 := rfl
@[simp] theorem Instr.condSel_jump (o : Operands) : (Instr.jump o).condSel = 7 := rfl
@[simp] theorem Instr.condInv_brAny (o : Operands) : (Instr.brAny o).condInv = false := rfl
@[simp] theorem Instr.condInv_brBelow (o : Operands) : (Instr.brBelow o).condInv = false := rfl
@[simp] theorem Instr.condInv_brSame (o : Operands) : (Instr.brSame o).condInv = false := rfl
@[simp] theorem Instr.condInv_brAbove (o : Operands) : (Instr.brAbove o).condInv = false := rfl
@[simp] theorem Instr.condInv_brClosed (o : Operands) : (Instr.brClosed o).condInv = false := rfl
@[simp] theorem Instr.condInv_brOpen (o : Operands) : (Instr.brOpen o).condInv = false := rfl
@[simp] theorem Instr.condInv_rsv6 (o : Operands) : (Instr.rsv6 o).condInv = false := rfl
@[simp] theorem Instr.condInv_next (o : Operands) : (Instr.next o).condInv = false := rfl
@[simp] theorem Instr.condInv_brnAny (o : Operands) : (Instr.brnAny o).condInv = true := rfl
@[simp] theorem Instr.condInv_brnBelow (o : Operands) : (Instr.brnBelow o).condInv = true := rfl
@[simp] theorem Instr.condInv_brnSame (o : Operands) : (Instr.brnSame o).condInv = true := rfl
@[simp] theorem Instr.condInv_brnAbove (o : Operands) : (Instr.brnAbove o).condInv = true := rfl
@[simp] theorem Instr.condInv_brnClosed (o : Operands) : (Instr.brnClosed o).condInv = true := rfl
@[simp] theorem Instr.condInv_brnOpen (o : Operands) : (Instr.brnOpen o).condInv = true := rfl
@[simp] theorem Instr.condInv_rsv6n (o : Operands) : (Instr.rsv6n o).condInv = true := rfl
@[simp] theorem Instr.condInv_jump (o : Operands) : (Instr.jump o).condInv = true := rfl

/-! ## The fields of each form (R70's columns `cond_inv` and `cond_sel`) -/

@[simp] theorem Instr.fields_brAny (o : Operands) : (Instr.brAny o).fields =
    ⟨o.jumpAddr, o.reqMoveUp, o.reqMoveDown, o.reqDoorState, o.reqReset, 0, false⟩ := rfl
@[simp] theorem Instr.fields_brBelow (o : Operands) : (Instr.brBelow o).fields =
    ⟨o.jumpAddr, o.reqMoveUp, o.reqMoveDown, o.reqDoorState, o.reqReset, 1, false⟩ := rfl
@[simp] theorem Instr.fields_brSame (o : Operands) : (Instr.brSame o).fields =
    ⟨o.jumpAddr, o.reqMoveUp, o.reqMoveDown, o.reqDoorState, o.reqReset, 2, false⟩ := rfl
@[simp] theorem Instr.fields_brAbove (o : Operands) : (Instr.brAbove o).fields =
    ⟨o.jumpAddr, o.reqMoveUp, o.reqMoveDown, o.reqDoorState, o.reqReset, 3, false⟩ := rfl
@[simp] theorem Instr.fields_brClosed (o : Operands) : (Instr.brClosed o).fields =
    ⟨o.jumpAddr, o.reqMoveUp, o.reqMoveDown, o.reqDoorState, o.reqReset, 4, false⟩ := rfl
@[simp] theorem Instr.fields_brOpen (o : Operands) : (Instr.brOpen o).fields =
    ⟨o.jumpAddr, o.reqMoveUp, o.reqMoveDown, o.reqDoorState, o.reqReset, 5, false⟩ := rfl
@[simp] theorem Instr.fields_rsv6 (o : Operands) : (Instr.rsv6 o).fields =
    ⟨o.jumpAddr, o.reqMoveUp, o.reqMoveDown, o.reqDoorState, o.reqReset, 6, false⟩ := rfl
@[simp] theorem Instr.fields_next (o : Operands) : (Instr.next o).fields =
    ⟨o.jumpAddr, o.reqMoveUp, o.reqMoveDown, o.reqDoorState, o.reqReset, 7, false⟩ := rfl
@[simp] theorem Instr.fields_brnAny (o : Operands) : (Instr.brnAny o).fields =
    ⟨o.jumpAddr, o.reqMoveUp, o.reqMoveDown, o.reqDoorState, o.reqReset, 0, true⟩ := rfl
@[simp] theorem Instr.fields_brnBelow (o : Operands) : (Instr.brnBelow o).fields =
    ⟨o.jumpAddr, o.reqMoveUp, o.reqMoveDown, o.reqDoorState, o.reqReset, 1, true⟩ := rfl
@[simp] theorem Instr.fields_brnSame (o : Operands) : (Instr.brnSame o).fields =
    ⟨o.jumpAddr, o.reqMoveUp, o.reqMoveDown, o.reqDoorState, o.reqReset, 2, true⟩ := rfl
@[simp] theorem Instr.fields_brnAbove (o : Operands) : (Instr.brnAbove o).fields =
    ⟨o.jumpAddr, o.reqMoveUp, o.reqMoveDown, o.reqDoorState, o.reqReset, 3, true⟩ := rfl
@[simp] theorem Instr.fields_brnClosed (o : Operands) : (Instr.brnClosed o).fields =
    ⟨o.jumpAddr, o.reqMoveUp, o.reqMoveDown, o.reqDoorState, o.reqReset, 4, true⟩ := rfl
@[simp] theorem Instr.fields_brnOpen (o : Operands) : (Instr.brnOpen o).fields =
    ⟨o.jumpAddr, o.reqMoveUp, o.reqMoveDown, o.reqDoorState, o.reqReset, 5, true⟩ := rfl
@[simp] theorem Instr.fields_rsv6n (o : Operands) : (Instr.rsv6n o).fields =
    ⟨o.jumpAddr, o.reqMoveUp, o.reqMoveDown, o.reqDoorState, o.reqReset, 6, true⟩ := rfl
@[simp] theorem Instr.fields_jump (o : Operands) : (Instr.jump o).fields =
    ⟨o.jumpAddr, o.reqMoveUp, o.reqMoveDown, o.reqDoorState, o.reqReset, 7, true⟩ := rfl

/-! The opcode of each form (R70's first column). -/

@[simp] theorem Instr.opcode_brAny (o : Operands) : (Instr.brAny o).opcode = 0x0#4 :=
  show BitVec.ofBool false ++ 0#3 = 0x0#4 by decide
@[simp] theorem Instr.opcode_brBelow (o : Operands) : (Instr.brBelow o).opcode = 0x1#4 :=
  show BitVec.ofBool false ++ 1#3 = 0x1#4 by decide
@[simp] theorem Instr.opcode_brSame (o : Operands) : (Instr.brSame o).opcode = 0x2#4 :=
  show BitVec.ofBool false ++ 2#3 = 0x2#4 by decide
@[simp] theorem Instr.opcode_brAbove (o : Operands) : (Instr.brAbove o).opcode = 0x3#4 :=
  show BitVec.ofBool false ++ 3#3 = 0x3#4 by decide
@[simp] theorem Instr.opcode_brClosed (o : Operands) : (Instr.brClosed o).opcode = 0x4#4 :=
  show BitVec.ofBool false ++ 4#3 = 0x4#4 by decide
@[simp] theorem Instr.opcode_brOpen (o : Operands) : (Instr.brOpen o).opcode = 0x5#4 :=
  show BitVec.ofBool false ++ 5#3 = 0x5#4 by decide
@[simp] theorem Instr.opcode_rsv6 (o : Operands) : (Instr.rsv6 o).opcode = 0x6#4 :=
  show BitVec.ofBool false ++ 6#3 = 0x6#4 by decide
@[simp] theorem Instr.opcode_next (o : Operands) : (Instr.next o).opcode = 0x7#4 :=
  show BitVec.ofBool false ++ 7#3 = 0x7#4 by decide
@[simp] theorem Instr.opcode_brnAny (o : Operands) : (Instr.brnAny o).opcode = 0x8#4 :=
  show BitVec.ofBool true ++ 0#3 = 0x8#4 by decide
@[simp] theorem Instr.opcode_brnBelow (o : Operands) : (Instr.brnBelow o).opcode = 0x9#4 :=
  show BitVec.ofBool true ++ 1#3 = 0x9#4 by decide
@[simp] theorem Instr.opcode_brnSame (o : Operands) : (Instr.brnSame o).opcode = 0xA#4 :=
  show BitVec.ofBool true ++ 2#3 = 0xA#4 by decide
@[simp] theorem Instr.opcode_brnAbove (o : Operands) : (Instr.brnAbove o).opcode = 0xB#4 :=
  show BitVec.ofBool true ++ 3#3 = 0xB#4 by decide
@[simp] theorem Instr.opcode_brnClosed (o : Operands) : (Instr.brnClosed o).opcode = 0xC#4 :=
  show BitVec.ofBool true ++ 4#3 = 0xC#4 by decide
@[simp] theorem Instr.opcode_brnOpen (o : Operands) : (Instr.brnOpen o).opcode = 0xD#4 :=
  show BitVec.ofBool true ++ 5#3 = 0xD#4 by decide
@[simp] theorem Instr.opcode_rsv6n (o : Operands) : (Instr.rsv6n o).opcode = 0xE#4 :=
  show BitVec.ofBool true ++ 6#3 = 0xE#4 by decide
@[simp] theorem Instr.opcode_jump (o : Operands) : (Instr.jump o).opcode = 0xF#4 :=
  show BitVec.ofBool true ++ 7#3 = 0xF#4 by decide

end Sys2Proof
end

