-- ==== Sys2Proof/Laws/State.lean ====
section
/-! SUPPORT. One lemma per field per update of State, true by rfl, so that no proof unfolds an update. -/

namespace Sys2Proof.Machine

/-! A successful step (R115, R116). -/

@[simp] theorem latch_pc (i : Instr) (taken : Bool) (s : State) : (latch i taken s).pc = nextPc taken i.operands s.pc := rfl
@[simp] theorem latch_store (i : Instr) (taken : Bool) (s : State) : (latch i taken s).store = s.store := rfl
@[simp] theorem latch_len (i : Instr) (taken : Bool) (s : State) : (latch i taken s).len = s.len := rfl
@[simp] theorem latch_out (i : Instr) (taken : Bool) (s : State) : (latch i taken s).out = i.fields := rfl
@[simp] theorem latch_fault (i : Instr) (taken : Bool) (s : State) : (latch i taken s).fault = s.fault := rfl
@[simp] theorem latch_inputs (i : Instr) (taken : Bool) (s : State) : (latch i taken s).inputs = s.inputs := rfl
@[simp] theorem latch_pending (i : Instr) (taken : Bool) (s : State) : (latch i taken s).pending = s.pending := rfl
@[simp] theorem latch_draws (i : Instr) (taken : Bool) (s : State) : (latch i taken s).draws = s.draws := rfl

/-! Fault entry (R172). -/

@[simp] theorem enterFault_pc (f : Fault) (w : Word) (s : State) : (enterFault f w s).pc = s.pc := rfl
@[simp] theorem enterFault_store (f : Fault) (w : Word) (s : State) : (enterFault f w s).store = s.store := rfl
@[simp] theorem enterFault_len (f : Fault) (w : Word) (s : State) : (enterFault f w s).len = s.len := rfl
@[simp] theorem enterFault_out (f : Fault) (w : Word) (s : State) : (enterFault f w s).out = s.out := rfl
@[simp] theorem enterFault_fault (f : Fault) (w : Word) (s : State) : (enterFault f w s).fault = { active := true, reason := f.reason, fpc := s.pc, fword := w } := rfl
@[simp] theorem enterFault_inputs (f : Fault) (w : Word) (s : State) : (enterFault f w s).inputs = s.inputs := rfl
@[simp] theorem enterFault_pending (f : Fault) (w : Word) (s : State) : (enterFault f w s).pending = s.pending := rfl
@[simp] theorem enterFault_draws (f : Fault) (w : Word) (s : State) : (enterFault f w s).draws = s.draws := rfl

/-! `reset()` (R190). -/

@[simp] theorem clearEngine_pc (s : State) : (clearEngine s).pc = 0 := rfl
@[simp] theorem clearEngine_store (s : State) : (clearEngine s).store = [] := rfl
@[simp] theorem clearEngine_len (s : State) : (clearEngine s).len = 0 := rfl
@[simp] theorem clearEngine_out (s : State) : (clearEngine s).out = zeroFields := rfl
@[simp] theorem clearEngine_fault (s : State) : (clearEngine s).fault = s.fault := rfl
@[simp] theorem clearEngine_inputs (s : State) : (clearEngine s).inputs = s.inputs := rfl
@[simp] theorem clearEngine_pending (s : State) : (clearEngine s).pending = s.pending := rfl
@[simp] theorem clearEngine_draws (s : State) : (clearEngine s).draws = s.draws := rfl

/-! `load(p)` (R121). -/

@[simp] theorem installProgram_pc (p : List Record) (s : State) : (installProgram p s).pc = s.pc := rfl
@[simp] theorem installProgram_store (p : List Record) (s : State) : (installProgram p s).store = Memory.writeProgram s.store 0 p := rfl
@[simp] theorem installProgram_len (p : List Record) (s : State) : (installProgram p s).len = BitVec.ofNat 9 p.length := rfl
@[simp] theorem installProgram_out (p : List Record) (s : State) : (installProgram p s).out = s.out := rfl
@[simp] theorem installProgram_fault (p : List Record) (s : State) : (installProgram p s).fault = s.fault := rfl
@[simp] theorem installProgram_inputs (p : List Record) (s : State) : (installProgram p s).inputs = s.inputs := rfl
@[simp] theorem installProgram_pending (p : List Record) (s : State) : (installProgram p s).pending = s.pending := rfl
@[simp] theorem installProgram_draws (p : List Record) (s : State) : (installProgram p s).draws = s.draws := rfl

/-! A word placed for the next fetch (log 9). -/

@[simp] theorem placeWord_pc (w : Word) (s : State) : (placeWord w s).pc = s.pc := rfl
@[simp] theorem placeWord_store (w : Word) (s : State) : (placeWord w s).store = Memory.write s.store s.pc.toNat w := rfl
@[simp] theorem placeWord_len (w : Word) (s : State) : (placeWord w s).len = s.len := rfl
@[simp] theorem placeWord_out (w : Word) (s : State) : (placeWord w s).out = s.out := rfl
@[simp] theorem placeWord_fault (w : Word) (s : State) : (placeWord w s).fault = s.fault := rfl
@[simp] theorem placeWord_inputs (w : Word) (s : State) : (placeWord w s).inputs = s.inputs := rfl
@[simp] theorem placeWord_pending (w : Word) (s : State) : (placeWord w s).pending = .step s.inputs :: s.pending := rfl
@[simp] theorem placeWord_draws (w : Word) (s : State) : (placeWord w s).draws = s.draws := rfl

/-! Taking the next transaction writes `pending` or `draws` only. -/

@[simp] theorem takeTransaction_pc (s : State) : (takeTransaction s).pc = s.pc := by
  unfold takeTransaction; split <;> rfl
@[simp] theorem takeTransaction_store (s : State) : (takeTransaction s).store = s.store := by
  unfold takeTransaction; split <;> rfl
@[simp] theorem takeTransaction_len (s : State) : (takeTransaction s).len = s.len := by
  unfold takeTransaction; split <;> rfl
@[simp] theorem takeTransaction_out (s : State) : (takeTransaction s).out = s.out := by
  unfold takeTransaction; split <;> rfl
@[simp] theorem takeTransaction_fault (s : State) : (takeTransaction s).fault = s.fault := by
  unfold takeTransaction; split <;> rfl
@[simp] theorem takeTransaction_inputs (s : State) : (takeTransaction s).inputs = s.inputs := by
  unfold takeTransaction; split <;> rfl

theorem takeTransaction_of_pending {s : State} {t : Transaction} {ts : List Transaction}
    (h : s.pending = t :: ts) : takeTransaction s = { s with pending := ts } := by
  simp [takeTransaction, h]

theorem takeTransaction_of_idle {s : State} (h : s.pending = []) :
    takeTransaction s = { s with draws := s.draws + 1 } := by
  simp [takeTransaction, h]

theorem nextTransaction_of_pending {s : State} {t : Transaction} {ts : List Transaction}
    (h : s.pending = t :: ts) : nextTransaction s = t := by
  simp [nextTransaction, h]

theorem nextTransaction_of_idle {s : State} (h : s.pending = []) :
    nextTransaction s = .step (Config.freeInputs s.draws) := by
  simp [nextTransaction, h]

/-- The fetch reads `store` and `pc` only (R112). -/
theorem fetchWord_congr {s t : State} (hs : s.store = t.store) (hp : s.pc = t.pc) :
    fetchWord s = fetchWord t := by
  simp [fetchWord, hs, hp]

@[simp] theorem fetchWord_takeTransaction (s : State) :
    fetchWord (takeTransaction s) = fetchWord s :=
  fetchWord_congr (by simp) (by simp)

@[simp] theorem fetchInstr_takeTransaction (s : State) :
    fetchInstr (takeTransaction s) = fetchInstr s := by
  simp [fetchInstr]

end Sys2Proof.Machine
end

