-- ==== Sys2Proof/Laws/Memory.lean ====
section
/-! SUPPORT. The laws of the program store: every operation keeps the canonical form, a read after a write
gives the word written, and a write leaves every other index alone (spec/20_memory.md R42, R49). -/

namespace Sys2Proof.Machine

@[simp] theorem Memory.read_nil (i : Nat) : Memory.read [] i = 0#16 := rfl

@[simp] theorem Memory.wf_nil : Memory.wf [] = true := rfl

theorem Memory.wfFrom_cons {lo i : Nat} {w : Word} {m : Memory} :
    Memory.wfFrom lo ((i, w) :: m) = true ↔
      lo ≤ i ∧ i < 256 ∧ w ≠ 0#16 ∧ Memory.wfFrom (i + 1) m = true := by
  change (decide (lo ≤ i) && decide (i < 256) && (w != 0#16) && Memory.wfFrom (i + 1) m) = true ↔ _
  simp [and_assoc]

theorem Memory.wfFrom_mono {lo lo' : Nat} (h : lo' ≤ lo) :
    ∀ {m : Memory}, Memory.wfFrom lo m = true → Memory.wfFrom lo' m = true
  | [], _ => rfl
  | (i, w) :: m, hm => by
    rw [Memory.wfFrom_cons] at hm ⊢
    exact ⟨by omega, hm.2⟩

theorem Memory.wfFrom_write {w : Word} {i : Nat} (hi : i < 256) :
    ∀ {m : Memory} {lo : Nat}, lo ≤ i → Memory.wfFrom lo m = true →
      Memory.wfFrom lo (Memory.write m i w) = true
  | [], lo, hlo, _ => by
    by_cases hw : w = 0#16
    · simp [Memory.write, hw, Memory.wfFrom]
    · simp only [Memory.write, hw, if_false, Memory.wfFrom_cons]
      exact ⟨hlo, hi, hw, rfl⟩
  | (j, v) :: m, lo, hlo, hm => by
    obtain ⟨h1, h2, h3, h4⟩ := Memory.wfFrom_cons.mp hm
    unfold Memory.write
    split_ifs with hij hw hij' hw
    · exact hm
    · exact Memory.wfFrom_cons.mpr ⟨hlo, hi, hw, Memory.wfFrom_cons.mpr ⟨hij, h2, h3, h4⟩⟩
    · exact Memory.wfFrom_mono (by omega) h4
    · exact Memory.wfFrom_cons.mpr ⟨hlo, hi, hw, hij' ▸ h4⟩
    · exact Memory.wfFrom_cons.mpr ⟨h1, h2, h3, Memory.wfFrom_write hi (by omega) h4⟩

/-- A write keeps the canonical form. -/
theorem Memory.wf_write {m : Memory} {i : Nat} {w : Word} (hi : i < 256) (hm : Memory.wf m = true) :
    Memory.wf (Memory.write m i w) = true :=
  Memory.wfFrom_write hi (Nat.zero_le i) hm

/-- A whole program keeps the canonical form (R121). -/
theorem Memory.wf_writeProgram :
    ∀ {p : List Record} {m : Memory} {first : Nat}, first + p.length ≤ 256 → Memory.wf m = true →
      Memory.wf (Memory.writeProgram m first p) = true
  | [], _, _, _, hm => hm
  | r :: p, m, first, hp, hm => by
    simp only [List.length_cons] at hp
    exact Memory.wf_writeProgram (p := p) (by omega) (Memory.wf_write (i := first) (by omega) hm)

/-- An index below every listed one reads 0x0000. -/
theorem Memory.read_of_lt {i : Nat} :
    ∀ {m : Memory} {lo : Nat}, Memory.wfFrom lo m = true → i < lo → Memory.read m i = 0#16
  | [], _, _, _ => rfl
  | (j, v) :: m, lo, hm, hi => by
    obtain ⟨h1, _, _, h4⟩ := Memory.wfFrom_cons.mp hm
    simp only [Memory.read, if_neg (show ¬ j = i by omega)]
    exact Memory.read_of_lt h4 (by omega)

theorem Memory.wfFrom_read_write_same {w : Word} {i : Nat} :
    ∀ {m : Memory} {lo : Nat}, Memory.wfFrom lo m = true →
      Memory.read (Memory.write m i w) i = w
  | [], _, _ => by
    by_cases hw : w = 0#16 <;> simp [Memory.write, Memory.read, hw]
  | (j, v) :: m, lo, hm => by
    obtain ⟨_, _, _, h4⟩ := Memory.wfFrom_cons.mp hm
    unfold Memory.write
    split_ifs with hij hw hij' hw
    · simp only [Memory.read, if_neg (show ¬ j = i by omega), hw]
      exact Memory.read_of_lt h4 (by omega)
    · simp [Memory.read]
    · rw [hw]; exact Memory.read_of_lt h4 (by omega)
    · simp [Memory.read]
    · simp only [Memory.read, if_neg (show ¬ j = i by omega)]
      exact Memory.wfFrom_read_write_same h4

/-- A read after a write to the same index gives the word written. -/
theorem Memory.read_write_same {m : Memory} {i : Nat} {w : Word} (hm : Memory.wf m = true) :
    Memory.read (Memory.write m i w) i = w :=
  Memory.wfFrom_read_write_same hm

/-- A write leaves every other index alone. -/
theorem Memory.read_write_other {w : Word} {i k : Nat} (hk : k ≠ i) :
    ∀ {m : Memory}, Memory.read (Memory.write m i w) k = Memory.read m k
  | [] => by
    by_cases hw : w = 0#16 <;> simp [Memory.write, Memory.read, hw, Ne.symm hk]
  | (j, v) :: m => by
    unfold Memory.write
    split_ifs with hij hw hij' hw
    · rfl
    · simp [Memory.read, Ne.symm hk]
    · subst hij'; simp [Memory.read, Ne.symm hk]
    · subst hij'; simp [Memory.read, Ne.symm hk]
    · simp only [Memory.read, Memory.read_write_other hk]

/-- Indices outside the program keep their words (R122). -/
theorem Memory.read_writeProgram_outside {k : Nat} :
    ∀ {p : List Record} {m : Memory} {first : Nat}, k < first ∨ first + p.length ≤ k →
      Memory.read (Memory.writeProgram m first p) k = Memory.read m k
  | [], _, _, _ => rfl
  | r :: p, m, first, hk => by
    simp only [List.length_cons] at hk
    rw [Memory.writeProgram, Memory.read_writeProgram_outside (by omega),
      Memory.read_write_other (by omega)]

end Sys2Proof.Machine
end

