-- ==== Sys2Proof/Laws/Ops.lean ====
section
/-! SUPPORT. What each shared operation can do, said once. -/

namespace Sys2Proof.Machine

/-! ## The selector (R91, R95, R97) -/

@[simp] theorem evaluate_any (v : Bool) (inp : ConditionInputs) :
    evaluate v 0 inp = .ok (anyPending inp ^^ v) := rfl
@[simp] theorem evaluate_below (v : Bool) (inp : ConditionInputs) :
    evaluate v 1 inp = .ok (inp.callPendingBelow ^^ v) := rfl
@[simp] theorem evaluate_same (v : Bool) (inp : ConditionInputs) :
    evaluate v 2 inp = .ok (inp.callPendingSame ^^ v) := rfl
@[simp] theorem evaluate_above (v : Bool) (inp : ConditionInputs) :
    evaluate v 3 inp = .ok (inp.callPendingAbove ^^ v) := rfl
@[simp] theorem evaluate_closed (v : Bool) (inp : ConditionInputs) :
    evaluate v 4 inp = .ok (inp.doorClosed ^^ v) := rfl
@[simp] theorem evaluate_open (v : Bool) (inp : ConditionInputs) :
    evaluate v 5 inp = .ok (inp.doorOpen ^^ v) := rfl
@[simp] theorem evaluate_reserved (v : Bool) (inp : ConditionInputs) :
    evaluate v 6 inp = .error .reservedCondSel := rfl
@[simp] theorem evaluate_fixed (v : Bool) (inp : ConditionInputs) :
    evaluate v 7 inp = .ok v := by
  cases v <;> rfl

/-! ## The end of a step -/

@[simp] theorem concludeStep_ok (i : Instr) (taken : Bool) (s : State) :
    concludeStep i (.ok taken) s = .next (latch i taken s) := rfl
@[simp] theorem concludeStep_error (i : Instr) (f : Fault) (s : State) :
    concludeStep i (.error f) s = .next (enterFault f (encode i) s) := rfl

/-- Everything a meaning can do: a successful step, or fault entry. -/
theorem concludeStep_cases (i : Instr) (selected : Except Fault Bool) (s : State) :
    (∃ taken, selected = .ok taken ∧ concludeStep i selected s = .next (latch i taken s)) ∨
    (∃ f, selected = .error f ∧ concludeStep i selected s = .next (enterFault f (encode i) s)) := by
  cases selected with
  | ok taken => exact .inl ⟨taken, rfl, rfl⟩
  | error f => exact .inr ⟨f, rfl, rfl⟩

/-! ## The host's transactions -/

/-- Everything `reset()` can do (R190). -/
theorem hostReset_cases (s : State) :
    (s.fault.active = true ∧ hostReset s = .refused .opAfterFault) ∨
    (s.fault.active = false ∧ hostReset s = .next (clearEngine s)) := by
  unfold hostReset
  cases h : s.fault.active <;> simp

/-- Everything `load(p)` can do (R121). -/
theorem hostLoad_cases (p : List Record) (s : State) :
    (s.fault.active = true ∧ hostLoad p s = .refused .opAfterFault) ∨
    (s.fault.active = false ∧ p.length ≤ 256 ∧ hostLoad p s = .next (installProgram p s)) ∨
    (s.fault.active = false ∧ 256 < p.length ∧ hostLoad p s = .refused .loadTooLong) := by
  unfold hostLoad programFits
  cases h : s.fault.active
  · by_cases hp : p.length ≤ 256
    · simp [hp]
    · simp [hp]; omega
  · simp

/-- Everything `step(inputs)` can do (R111). -/
theorem hostStep_cases (inp : ConditionInputs) (s : State) :
    (s.fault.active = true ∧ hostStep inp s = .refused .stepAfterFault) ∨
    (s.fault.active = false ∧ hostStep inp s = exec (fetchInstr s) { s with inputs := inp }) := by
  unfold hostStep
  cases h : s.fault.active <;> simp

/-! ## The introspection reads (R44, R125) -/

theorem wordAt_of_lt {i : Nat} (h : i < 256) (s : State) : wordAt s i = .ok (Memory.read s.store i) :=
  if_pos h

theorem wordAt_of_ge {i : Nat} (h : 256 ≤ i) (s : State) : wordAt s i = .error .indexOutOfRange :=
  if_neg (Nat.not_lt.mpr h)

/-- `wordAt` reads the store alone (R53). -/
theorem wordAt_congr {s t : State} (h : s.store = t.store) (i : Nat) : wordAt s i = wordAt t i := by
  simp [wordAt, h]

end Sys2Proof.Machine
end

