-- ==== Sys2Proof/Laws/PerInstr.lean ====
section
/-! SUPPORT. The family TableMatch: every form's word meets its row's match and mask in
spec/opcode_table.json (spec/30_encoding.md R70: `w & 0xF000 == nibble << 12`). -/

namespace Sys2Proof.Laws

/-- The high nibble of an encoded word is the form's opcode. -/
theorem encode_match (c : BitVec 4) (b : BitVec 12) :
    (c ++ b : Word) &&& 0xF000#16 = c.setWidth 16 <<< 12 := by
  ext k hk
  simp only [BitVec.getElem_and, BitVec.getElem_append, BitVec.getElem_shiftLeft,
    BitVec.getElem_setWidth]
  by_cases h : k < 12
  · interval_cases k <;> simp
  · interval_cases k <;> simp_all

/-- The word of `i`, masked with 0xF000, is its opcode shifted to bits 15 to 12. -/
def TableMatch.Statement (i : Instr) : Prop :=
  encode i &&& 0xF000#16 = i.opcode.setWidth 16 <<< 12

theorem TableMatch.brAny (o : Operands) : TableMatch.Statement (.brAny o) := encode_match _ _
theorem TableMatch.brBelow (o : Operands) : TableMatch.Statement (.brBelow o) := encode_match _ _
theorem TableMatch.brSame (o : Operands) : TableMatch.Statement (.brSame o) := encode_match _ _
theorem TableMatch.brAbove (o : Operands) : TableMatch.Statement (.brAbove o) := encode_match _ _
theorem TableMatch.brClosed (o : Operands) : TableMatch.Statement (.brClosed o) := encode_match _ _
theorem TableMatch.brOpen (o : Operands) : TableMatch.Statement (.brOpen o) := encode_match _ _
theorem TableMatch.rsv6 (o : Operands) : TableMatch.Statement (.rsv6 o) := encode_match _ _
theorem TableMatch.next (o : Operands) : TableMatch.Statement (.next o) := encode_match _ _
theorem TableMatch.brnAny (o : Operands) : TableMatch.Statement (.brnAny o) := encode_match _ _
theorem TableMatch.brnBelow (o : Operands) : TableMatch.Statement (.brnBelow o) := encode_match _ _
theorem TableMatch.brnSame (o : Operands) : TableMatch.Statement (.brnSame o) := encode_match _ _
theorem TableMatch.brnAbove (o : Operands) : TableMatch.Statement (.brnAbove o) := encode_match _ _
theorem TableMatch.brnClosed (o : Operands) : TableMatch.Statement (.brnClosed o) := encode_match _ _
theorem TableMatch.brnOpen (o : Operands) : TableMatch.Statement (.brnOpen o) := encode_match _ _
theorem TableMatch.rsv6n (o : Operands) : TableMatch.Statement (.rsv6n o) := encode_match _ _
theorem TableMatch.jump (o : Operands) : TableMatch.Statement (.jump o) := encode_match _ _

end Sys2Proof.Laws
end

