-- ==== Sys2Proof/Tests/Slice0.lean ====
section
/-! SUPPORT. The model's own tests. Expected results come from the spec: the rules' examples (R131 to R161) and
spec/95_test_vectors.md (sections named below), never from the model. -/

namespace Sys2Proof.Tests
open Sys2Proof.Machine

/-! ## Helpers -/

/-- A snapshot from the letters of 95_test_vectors.md: L, S, U (calls below, same, above), C, O (doors). -/
def snap (l s u c o : Bool) : ConditionInputs := ⟨l, s, u, c, o⟩
def none' : ConditionInputs := snap false false false false false
def inL : ConditionInputs := snap true false false false false
def inS : ConditionInputs := snap false true false false false
def inU : ConditionInputs := snap false false true false false
def inC : ConditionInputs := snap false false false true false
def inO : ConditionInputs := snap false false false false true
def inCO : ConditionInputs := snap false false false true true

/-- A powered-on engine with one word at `pc` and one step asked for. -/
def engineAt (pc w : Nat) (inp : ConditionInputs) : State :=
  { State.reset with
    pc := BitVec.ofNat 8 pc
    store := Memory.write [] pc (BitVec.ofNat 16 w)
    pending := [.step inp] }

/-- The `pc` and the 16-bit `out` after one step without a fault. -/
def pcOut (s : State) : Option (Nat × Nat) :=
  match step s with
  | .next t => if t.fault.active then none else some (t.pc.toNat, (readOut t).toNat)
  | _ => none

/-- The fault register, `pc` and `out` after one step. -/
def faultOf (s : State) : Option (FaultReg × Nat × Nat) :=
  match step s with
  | .next t => some (t.fault, t.pc.toNat, (readOut t).toNat)
  | _ => none

/-- The refusal of one step. -/
def refusalOf (s : State) : Option Refusal :=
  match step s with
  | .refused r => some r
  | _ => none

/-- `pc`, `len` and one word after one step: what a `load` or `reset` shows. -/
def shown (s : State) (i : Nat) : Option (Nat × Nat × Nat) :=
  match step s with
  | .next t => some (t.pc.toNat, t.len.toNat, (Memory.read t.store i).toNat)
  | _ => none

/-! ## Well-formedness: each check refuses an ill-formed term (R25, R67, R121) -/

theorem test_wf_inRange : (⟨255, 1, 1, 1, 1, 7, 1⟩ : Record).wellFormed = true := by decide
theorem test_wf_jumpAddr : (⟨256, 0, 0, 0, 0, 0, 0⟩ : Record).wellFormed = false := by decide
theorem test_wf_reqMoveUp : (⟨0, 2, 0, 0, 0, 0, 0⟩ : Record).wellFormed = false := by decide
theorem test_wf_reqMoveDown : (⟨0, 0, 2, 0, 0, 0, 0⟩ : Record).wellFormed = false := by decide
theorem test_wf_reqDoorState : (⟨0, 0, 0, 2, 0, 0, 0⟩ : Record).wellFormed = false := by decide
theorem test_wf_reqReset : (⟨0, 0, 0, 0, 2, 0, 0⟩ : Record).wellFormed = false := by decide
theorem test_wf_condSel : (⟨0, 0, 0, 0, 0, 8, 0⟩ : Record).wellFormed = false := by decide
theorem test_wf_condInv : (⟨0, 0, 0, 0, 0, 0, 2⟩ : Record).wellFormed = false := by decide
theorem test_wf_programTooLong : programFits (List.replicate 257 ⟨0, 0, 0, 0, 0, 0, 0⟩) = false := by
  unfold programFits
  rw [List.length_replicate]
  decide

/-! ## Decoding: one word per form, bit by bit from the patterns `vsss rodu jjjjjjjj` of R131 to R161 -/

theorem test_decode_brAny :
    decode 0b0000_0100_00000010#16 = .brAny ⟨2, false, false, true, false⟩ := by decide
theorem test_decode_brBelow :
    decode 0b0001_0010_00110100#16 = .brBelow ⟨52, false, true, false, false⟩ := by decide
theorem test_decode_brSame :
    decode 0b0010_0000_00001101#16 = .brSame ⟨13, false, false, false, false⟩ := by decide
theorem test_decode_brAbove :
    decode 0b0011_0000_00001011#16 = .brAbove ⟨11, false, false, false, false⟩ := by decide
theorem test_decode_brClosed :
    decode 0b0100_0001_00100000#16 = .brClosed ⟨32, true, false, false, false⟩ := by decide
theorem test_decode_brOpen :
    decode 0b0101_1000_00000111#16 = .brOpen ⟨7, false, false, false, true⟩ := by decide
theorem test_decode_rsv6 :
    decode 0b0110_1010_00101100#16 = .rsv6 ⟨44, false, true, false, true⟩ := by decide
theorem test_decode_next :
    decode 0b0111_0011_00000000#16 = .next ⟨0, true, true, false, false⟩ := by decide
theorem test_decode_brnAny :
    decode 0b1000_0100_00000000#16 = .brnAny ⟨0, false, false, true, false⟩ := by decide
theorem test_decode_brnBelow :
    decode 0b1001_0010_11111111#16 = .brnBelow ⟨255, false, true, false, false⟩ := by decide
theorem test_decode_brnSame :
    decode 0b1010_0001_00001100#16 = .brnSame ⟨12, true, false, false, false⟩ := by decide
theorem test_decode_brnAbove :
    decode 0b1011_0000_00000011#16 = .brnAbove ⟨3, false, false, false, false⟩ := by decide
theorem test_decode_brnClosed :
    decode 0b1100_0000_00000011#16 = .brnClosed ⟨3, false, false, false, false⟩ := by decide
theorem test_decode_brnOpen :
    decode 0b1101_0100_00001111#16 = .brnOpen ⟨15, false, false, true, false⟩ := by decide
theorem test_decode_rsv6n :
    decode 0b1110_0000_00000000#16 = .rsv6n ⟨0, false, false, false, false⟩ := by decide
theorem test_decode_jump :
    decode 0b1111_1100_00000000#16 = .jump ⟨0, false, false, true, true⟩ := by decide
/-- 95 section 2.1: 0x1234. -/
theorem test_decodeFields : decodeFields 0x1234#16 = ⟨52, false, true, false, false, 1, false⟩ := by
  decide
theorem test_decodeTableWord : decodeTableWord 16 0xF905 = some (.jump ⟨5, true, false, false, true⟩) := by
  decide
theorem test_decodeTableWord_tooWide : decodeTableWord 24 0 = none := by decide

/-! ## Encoding (95 section 2.2, with truncation) -/

theorem test_encode_record : (⟨2, 0, 0, 1, 0, 0, 0⟩ : Record).encode = 0x0402 := by decide
theorem test_encode_truncates : (⟨300, 2, 3, 0, 1, 14, 2⟩ : Record).encode = 0x6A2C := by decide
theorem test_encode_instr : encode (.jump ⟨5, true, false, false, true⟩) = 0xF905 := by decide

/-! ## Assembler notation (R74, R75) -/

theorem test_assemble :
    (assemble [] ⟨"JUMP", .number 0, [.opened, .rst]⟩).map encode = some 0xFC00 := by decide
theorem test_lineText : (⟨"JUMP", .number 0, [.opened, .rst]⟩ : AsmLine).text = "JUMP 0, OPEN, RST" := by
  decide
/-- The words of P3 (95 section 3), its target 2 written as a label. -/
theorem test_assembleSource : (assembleSource
    [ ⟨none, .inl ⟨"BR.SAME", .label "BAD", [.opened]⟩⟩, ⟨none, .inl ⟨"JUMP", .number 0, []⟩⟩,
      ⟨some "BAD", .inl ⟨"RSV6", .number 0, []⟩⟩ ]).map (List.map encode) =
    some [0x2402, 0xF000, 0x6000] := by decide
theorem test_pseudo : encode (expandPseudo 9 (.waitUntil .same [.down])) = 0xA209 := by decide

/-! ## The selector (95 section 2.3; snapshot U, C, O) -/

theorem test_selector_anyInverted : evaluate true 0 (snap false false true true true) = .ok false := rfl
theorem test_selector_outOfRange : evaluate false 8 none' = .error .condSelOutOfRange := rfl

/-! ## One step of each form: the examples of R131 to R151, and the other outcome from 95 section 2.4 -/

theorem test_brAny_taken : pcOut (engineAt 0 0x0402 inL) = some (2, 0x0402) := by decide
theorem test_brAny_notTaken : pcOut (engineAt 100 0x00C8 none') = some (101, 0x00C8) := by decide
theorem test_brBelow_taken : pcOut (engineAt 4 0x1008 inL) = some (8, 0x1008) := by decide
theorem test_brBelow_notTaken : pcOut (engineAt 100 0x10C8 inS) = some (101, 0x10C8) := by decide
theorem test_brSame_taken : pcOut (engineAt 6 0x200D inS) = some (13, 0x200D) := by decide
theorem test_brSame_wraps : pcOut (engineAt 255 0x2007 none') = some (0, 0x2007) := by decide
theorem test_brAbove_taken : pcOut (engineAt 100 0x30C8 inU) = some (200, 0x30C8) := by decide
theorem test_brAbove_notTaken : pcOut (engineAt 5 0x300B none') = some (6, 0x300B) := by decide
theorem test_brClosed_taken : pcOut (engineAt 16 0x4120 inC) = some (32, 0x4120) := by decide
theorem test_brClosed_notTaken : pcOut (engineAt 100 0x40C8 inO) = some (101, 0x40C8) := by decide
theorem test_brOpen_taken : pcOut (engineAt 100 0x50C8 inO) = some (200, 0x50C8) := by decide
theorem test_brOpen_notTaken : pcOut (engineAt 200 0x5007 inC) = some (201, 0x5007) := by decide
theorem test_brnAny_taken : pcOut (engineAt 5 0x8400 none') = some (0, 0x8400) := by decide
theorem test_brnAny_notTaken : pcOut (engineAt 3 0x8009 inS) = some (4, 0x8009) := by decide
theorem test_brnBelow_taken : pcOut (engineAt 100 0x90C8 inS) = some (200, 0x90C8) := by decide
theorem test_brnBelow_wraps : pcOut (engineAt 255 0x92FF inL) = some (0, 0x92FF) := by decide
theorem test_brnSame_selfLoop : pcOut (engineAt 9 0xA209 none') = some (9, 0xA209) := by decide
theorem test_brnSame_notTaken : pcOut (engineAt 100 0xA0C8 inS) = some (101, 0xA0C8) := by decide
theorem test_brnAbove_taken : pcOut (engineAt 100 0xB0C8 inS) = some (200, 0xB0C8) := by decide
theorem test_brnAbove_notTaken : pcOut (engineAt 40 0xB003 inU) = some (41, 0xB003) := by decide
theorem test_brnClosed_selfLoop : pcOut (engineAt 50 0xC032 inO) = some (50, 0xC032) := by decide
theorem test_brnClosed_notTaken : pcOut (engineAt 50 0xC032 inC) = some (51, 0xC032) := by decide
theorem test_brnOpen_taken : pcOut (engineAt 100 0xD0C8 inC) = some (200, 0xD0C8) := by decide
theorem test_brnOpen_bothDoors : pcOut (engineAt 3 0xD009 inCO) = some (4, 0xD009) := by decide
theorem test_next_ignoresTarget : pcOut (engineAt 2 0x704D inL) = some (3, 0x704D) := by decide
theorem test_next_wraps : pcOut (engineAt 255 0x7300 none') = some (0, 0x7300) := by decide
theorem test_jump : pcOut (engineAt 16 0xFC00 none') = some (0, 0xFC00) := by decide
theorem test_jump_selfLoop : pcOut (engineAt 255 0xF0FF inCO) = some (255, 0xF0FF) := by decide
/-- 95 section 2.6. -/
theorem test_rsv6 : faultOf (engineAt 7 0x6402 none') =
    some (⟨true, .reservedCondSel, 7, 0x6402⟩, 7, 0) := by decide
theorem test_rsv6n : faultOf (engineAt 200 0xEFFF (snap true true true true true)) =
    some (⟨true, .reservedCondSel, 200, 0xEFFF⟩, 200, 0) := by decide

/-! ## The engine's operations (95 section 2.7) -/

/-- A running engine: `pc` 9, `len` 17, one old word at index 0 and one at 5. -/
def running (pending : List Transaction) : State :=
  { State.reset with pc := 9, len := 17, store := [(0, 0x0402), (5, 0x300B)], pending := pending }

/-- The same engine after a fault. -/
def broken (pending : List Transaction) : State :=
  { running pending with fault := ⟨true, .reservedCondSel, 9, 0x6000⟩, store := [(9, 0x6000)] }

def zeroRecord : Record := ⟨0, 0, 0, 0, 0, 0, 0⟩
def jump0 : Record := ⟨0, 0, 0, 0, 0, 7, 1⟩
def reservedRecord : Record := ⟨0, 0, 0, 0, 0, 6, 0⟩

theorem test_load : shown (running [.load [jump0]]) 0 = some (9, 1, 0xF000) := by decide
theorem test_load_keepsTheRest : shown (running [.load [jump0]]) 5 = some (9, 1, 0x300B) := by decide
theorem test_load_empty : shown (running [.load []]) 0 = some (9, 0, 0x0402) := by decide
theorem test_load_reserved : shown (running [.load [reservedRecord]]) 0 = some (9, 1, 0x6000) := by
  decide
theorem test_reset : shown (running [.reset]) 0 = some (0, 0, 0) := by decide
theorem test_stepAfterFault : refusalOf (broken [.step inL]) = some .stepAfterFault := by decide
theorem test_unscriptedStepAfterFault : refusalOf (broken []) = some .stepAfterFault := by decide
theorem test_loadAfterFault : refusalOf (broken [.load [jump0]]) = some .opAfterFault := by decide
theorem test_resetAfterFault : refusalOf (broken [.reset]) = some .opAfterFault := by decide
theorem test_zeroWord_call : pcOut (engineAt 9 0 inU) = some (0, 0) := by decide
theorem test_zeroWord_noCall : pcOut (engineAt 9 0 none') = some (10, 0) := by decide

/-- The words of 95 S5 (R196), as the store holds them after power-on and `load` (R197). -/
theorem test_defaultProgram : defaultProgram.map Record.encode =
    [0x0402, 0xF400, 0x7003, 0xC003, 0x1008, 0x300B, 0x200D, 0xF004, 0x7209, 0xA209, 0xF00E, 0x710C,
      0xA10C, 0xF00E, 0x740F, 0xD40F, 0xFC00] := by decide

/-- `pc`, `len`, the words at 0, 16 and 17, `out` and the fault's reason code after boot. -/
def bootShown : Option (List Nat) :=
  match boot with
  | .next t => some [t.pc.toNat, t.len.toNat, (Memory.read t.store 0).toNat,
      (Memory.read t.store 16).toNat, (Memory.read t.store 17).toNat, (readOut t).toNat,
      t.fault.reason.code]
  | _ => none

/-- R197: `len` is 17, `pc` 0, the last word is at 16 and index 17 reads 0x0000. -/
theorem test_boot : bootShown = some [0, 17, 0x0402, 0xFC00, 0, 0, 0] := by decide

/-- A word placed after reset runs as the first instruction (log 9). -/
theorem test_withFetchWord : pcOut (State.reset.withFetchWord 16 0xF905) = some (5, 0xF905) := by decide

/-! ## Witnesses: a state and operands that meet each statement's hypotheses -/

/-- RecordRoundTrip, and its truncation clause. -/
theorem witness_recordRoundTrip :
    (⟨255, 1, 1, 1, 1, 7, 1⟩ : Record).wellFormed = true ∧
    (⟨258, 0, 0, 0, 0, 9, 0⟩ : Record).jumpAddr = 258 ∧
    (⟨258, 0, 0, 0, 0, 9, 0⟩ : Record).condSel = 9 := by decide

/-- The encoding clause of every statement about a form (BrAny… to JumpAlwaysBranches,
ReservedFormsTakeTheFault). -/
theorem witness_formWords :
    0x0402#16 &&& 0xF000#16 = 0x0000#16 ∧ 0x1008#16 &&& 0xF000#16 = 0x1000#16 ∧
    0x200D#16 &&& 0xF000#16 = 0x2000#16 ∧ 0x300B#16 &&& 0xF000#16 = 0x3000#16 ∧
    0x4120#16 &&& 0xF000#16 = 0x4000#16 ∧ 0x5007#16 &&& 0xF000#16 = 0x5000#16 ∧
    0x6402#16 &&& 0xF000#16 = 0x6000#16 ∧ 0x7003#16 &&& 0xF000#16 = 0x7000#16 ∧
    0x8400#16 &&& 0xF000#16 = 0x8000#16 ∧ 0x92FF#16 &&& 0xF000#16 = 0x9000#16 ∧
    0xA209#16 &&& 0xF000#16 = 0xA000#16 ∧ 0xB003#16 &&& 0xF000#16 = 0xB000#16 ∧
    0xC003#16 &&& 0xF000#16 = 0xC000#16 ∧ 0xD40F#16 &&& 0xF000#16 = 0xD000#16 ∧
    0xEFFF#16 &&& 0xF000#16 = 0xE000#16 ∧ 0xFC00#16 &&& 0xF000#16 = 0xF000#16 := by decide

/-- AssemblerReadsBackEveryInstruction, its second clause at the boundary, and its third. -/
theorem witness_asmTarget :
    targetNumber [] (AsmTarget.number 256) = some 256 ∧
    targetNumber [("A", 3)] (AsmTarget.label "B") = none := by decide

/-- EveryFormIsTheOneControlCycle: a selector that answers, and one that faults. -/
theorem witness_controlCycle :
    evaluate (Instr.brnSame ⟨9, false, true, false, false⟩).condInv
      (Instr.brnSame ⟨9, false, true, false, false⟩).condSel.toNat inS = .ok false ∧
    evaluate (Instr.rsv6n ⟨0, false, false, false, false⟩).condInv
      (Instr.rsv6n ⟨0, false, false, false, false⟩).condSel.toNat inS = .error .reservedCondSel :=
  ⟨rfl, rfl⟩

/-- InstructionsNeverTouchMemory: a form that succeeds and one that faults. -/
theorem witness_execNext :
    (∃ t, exec (.jump ⟨5, true, false, false, true⟩) (running []) = .next t) ∧
    (Instr.jump ⟨5, true, false, false, true⟩).condSel ≠ 6 ∧
    (∃ t, exec (.rsv6 ⟨5, true, false, false, true⟩) (running []) = .next t) ∧
    (Instr.rsv6 ⟨5, true, false, false, true⟩).condSel = 6 :=
  ⟨⟨_, rfl⟩, by decide, ⟨_, rfl⟩, by decide⟩

/-- WaitLoopsHoldAndRelease. -/
theorem witness_waitLoop :
    (running []).pc = 9 ∧ (2 : CondSel).toNat = 2 ∧
    evaluate false (2 : CondSel).toNat (running []).inputs = .ok false := by
  exact ⟨rfl, rfl, rfl⟩

/-- StepRunsTheDecodedInstruction, SuccessfulStepLatchesTheFetchedWord, EarlierInputsAreNeverRead,
EveryUnfaultedStepHasASuccessor: a scripted step, and an unscripted one. -/
theorem witness_step :
    (engineAt 5 0x8400 inL).fault.active = false ∧
    (engineAt 5 0x8400 inL).pending = .step inL :: [] ∧
    isReserved (fetchWord (engineAt 5 0x8400 inL)) = false ∧
    nextTransaction (engineAt 5 0x8400 inL) = .step inL ∧
    (running []).fault.active = false ∧ (running []).pending = [] ∧
    nextTransaction (running []) = .step (Config.freeInputs 0) := by
  refine ⟨rfl, rfl, by decide, rfl, rfl, rfl, rfl⟩

/-- Every `engineAt` below has a step as its next transaction. -/
theorem witness_nextTransaction (pc w : Nat) (inp : ConditionInputs) :
    nextTransaction (engineAt pc w inp) = .step inp := rfl

/-- PlacedWordRunsNext. -/
theorem witness_placedWord :
    Memory.wf (running []).store = true ∧ (running []).fault.active = false := by decide

/-- StepFollowsTheBranchRule: a taken self-loop, and a step not taken at 255. -/
theorem witness_branchRule :
    evaluate ((fetchWord (engineAt 9 0xA209 none')).getLsbD 15)
      ((fetchWord (engineAt 9 0xA209 none')).extractLsb' 12 3).toNat none' = .ok true ∧
    (fetchWord (engineAt 9 0xA209 none')).extractLsb' 0 8 = (engineAt 9 0xA209 none').pc ∧
    evaluate ((fetchWord (engineAt 255 0x2007 none')).getLsbD 15)
      ((fetchWord (engineAt 255 0x2007 none')).extractLsb' 12 3).toNat none' = .ok false ∧
    (engineAt 255 0x2007 none').pc = 255 := by
  exact ⟨by rfl, by decide, by rfl, by decide⟩

/-- OutputIgnoresTheInputs: the same word, two snapshots, two successful steps, from one `pc` and with the
same selector answer. -/
theorem witness_outputIgnoresInputs :
    fetchWord (engineAt 3 0x0009 inL) = fetchWord (engineAt 3 0x0009 inS) ∧
    pcOut (engineAt 3 0x0009 inL) = some (9, 0x0009) ∧
    pcOut (engineAt 3 0x0009 inS) = some (9, 0x0009) ∧
    (engineAt 3 0x0009 inL).pc = (engineAt 3 0x0009 inS).pc ∧
    evaluate false 0 inL = evaluate false 0 inS := by
  refine ⟨by decide, by decide, by decide, by decide, rfl⟩

/-- StepNeverWritesStoreNorTouchesLen, EachOperationWritesOnlyItsOwnState,
ProgramCounterMovesOnlyAsTheRuleAllows, OnlyReservedWordsFault: each transaction answers a next state, and a
step does so with and without a fault. -/
theorem witness_transactions :
    (nextTransaction (engineAt 16 0xFC00 none') = .step none' ∧
      ∃ t, step (engineAt 16 0xFC00 none') = .next t ∧ t.fault.active = false) ∧
    (nextTransaction (engineAt 7 0x6402 none') = .step none' ∧
      ∃ t, step (engineAt 7 0x6402 none') = .next t ∧ t.fault.active = true) ∧
    (nextTransaction (running [.load [jump0]]) = .load [jump0] ∧
      ∃ t, step (running [.load [jump0]]) = .next t) ∧
    (nextTransaction (running [.reset]) = .reset ∧ ∃ t, step (running [.reset]) = .next t) :=
  ⟨⟨rfl, _, rfl, rfl⟩, ⟨rfl, _, rfl, rfl⟩, ⟨rfl, _, rfl⟩, ⟨rfl, _, rfl⟩⟩

/-- FaultEntryIsPrecise. -/
theorem witness_faultEntry :
    (engineAt 7 0x6402 none').fault.active = false ∧
    (engineAt 7 0x6402 none').pending = .step none' :: [] ∧
    isReserved (fetchWord (engineAt 7 0x6402 none')) = true := by decide

/-- FaultedEngineRefusesEveryTransaction, each clause. -/
theorem witness_faultedEngine :
    (broken []).fault.active = true ∧ nextTransaction (broken [.step inL]) = .step inL ∧
    nextTransaction (broken [.load []]) = .load [] ∧ nextTransaction (broken [.reset]) = .reset := by
  exact ⟨rfl, rfl, rfl, rfl⟩

/-- LoadInstallsTheProgram, at both ends of the length's range. -/
theorem witness_load :
    Memory.wf (running []).store = true ∧ (running []).fault.active = false ∧
    ([] : List Record).length ≤ 256 ∧ (List.replicate 256 jump0).length ≤ 256 ∧
    (running [.load (List.replicate 256 jump0)]).pending =
      .load (List.replicate 256 jump0) :: [] := by
  exact ⟨by decide, rfl, by decide, by rw [List.length_replicate], rfl⟩

/-- OverlongLoadIsRefused, each clause at the boundary. -/
theorem witness_overlongLoad :
    nextTransaction (running [.load (List.replicate 257 jump0)]) =
      .load (List.replicate 257 jump0) ∧
    256 < (List.replicate 257 jump0).length ∧
    (running [.load (List.replicate 257 jump0)]).fault.active = false ∧
    nextTransaction (broken [.load (List.replicate 257 jump0)]) =
      .load (List.replicate 257 jump0) ∧
    (broken [.load (List.replicate 257 jump0)]).fault.active = true := by
  exact ⟨rfl, by rw [List.length_replicate]; decide, rfl, rfl, rfl⟩

/-- ResetClearsTheEngine. -/
theorem witness_reset :
    (running [.reset]).fault.active = false ∧ (running [.reset]).pending = .reset :: [] :=
  ⟨rfl, rfl⟩

/-- BootHoldsTheImage. -/
theorem witness_boot :
    (defaultProgram).length ≤ 256 ∧ (running bootTransactions).fault.active = false ∧
    (running bootTransactions).pending = bootTransactions defaultProgram :=
  ⟨by decide, rfl, rfl⟩

/-- NextFetchSeesTheLoad: `pc` the last loaded index, and the first one outside. -/
theorem witness_nextFetch :
    Memory.wf (running []).store = true ∧
    (running [.load (List.replicate 10 jump0), .step inL]).pending =
      .load (List.replicate 10 jump0) :: .step inL :: [] ∧
    (running []).pc.toNat < (List.replicate 10 jump0).length ∧
    (List.replicate 9 jump0).length ≤ (running []).pc.toNat := by
  exact ⟨by decide, rfl, by decide, by decide⟩

/-- ZeroWordWalksOrReturns. -/
theorem witness_zeroWord :
    (engineAt 9 0 inU).fault.active = false ∧ (engineAt 9 0 inU).pending = .step inU :: [] ∧
    fetchWord (engineAt 9 0 inU) = 0 := by decide

/-- WordReadsAreBounded, at the boundary. -/
theorem witness_wordReads : 255 < 256 ∧ 256 ≤ 256 := by decide

/-- StepKeepsTheInvariant: a running state, a state about to fault, and the state after a fault. -/
theorem witness_invariant :
    State.Inv (engineAt 16 0xFC00 none') ∧
    (∃ t, step (engineAt 16 0xFC00 none') = .next t) ∧
    State.Inv (engineAt 7 0x6402 none') ∧
    (∃ t, step (engineAt 7 0x6402 none') = .next t) ∧ State.Inv (broken []) :=
  ⟨⟨by decide, by decide, by decide⟩, ⟨_, rfl⟩, ⟨by decide, by decide, by decide⟩, ⟨_, rfl⟩,
    ⟨by decide, by decide, by decide⟩⟩

/-- ReservedFreeEngineNeverFaults: a state that steps, and one whose load is too long. -/
theorem witness_reservedFree (pending : List Transaction)
    (h : pending = [.step inL] ∨ pending = [.load (List.replicate 257 jump0)]) :
    State.ReservedFree { State.reset with pending := pending } ∧
    Memory.wf State.reset.store = true := by
  refine ⟨⟨rfl, fun i => ?_, fun t ht => ?_⟩, rfl⟩
  · change isReserved 0#16 = false
    decide
  · rcases h with rfl | rfl
    · simp only [List.mem_singleton] at ht
      subst ht
      exact trivial
    · simp only [List.mem_singleton] at ht
      subst ht
      intro r hr
      rw [List.eq_of_mem_replicate hr]
      decide

/-- Its step and its refusal. -/
theorem witness_reservedFree_outcomes :
    (∃ t, step { State.reset with pending := [.step inL] } = .next t) ∧
    step { State.reset with pending := [.load (List.replicate 257 jump0)] } =
      .refused .loadTooLong := by
  refine ⟨⟨_, rfl⟩, ?_⟩
  have h : programFits (List.replicate 257 jump0) = false := by
    unfold programFits
    rw [List.length_replicate]
    decide
  change hostLoad (List.replicate 257 jump0) State.reset = .refused .loadTooLong
  unfold hostLoad
  rw [h]
  rfl

end Sys2Proof.Tests
end

section
/-! PROOFS. The decoder tied to the encoder, the engine's step as one equation, and every transition of the
machine as one case of an inductive; then the statements of spec/10_state.md about every step. -/

namespace Sys2Proof

/-! ## The decoder, part by part (spec/30_encoding.md R65, R70) -/

theorem ofBool_getLsbD_eq_extractLsb' {n : Nat} (w : BitVec n) (k : Nat) :
    BitVec.ofBool (w.getLsbD k) = w.extractLsb' k 1 := by
  apply BitVec.eq_of_getLsbD_eq
  intro j hj
  simp [show j = 0 by omega]

/-- `cond_sel` bit by bit, as the opcode map reads it. -/
theorem condSel_bits (w : Word) :
    w.extractLsb' 12 3 = BitVec.ofBool (w.getLsbD 14) ++ BitVec.ofBool (w.getLsbD 13) ++
      BitVec.ofBool (w.getLsbD 12) := by
  simp only [ofBool_getLsbD_eq_extractLsb',
    BitVec.extractLsb'_append_extractLsb'_eq_extractLsb']

@[simp] theorem operands_decode (w : Word) : (decode w).operands = operandsOf w := by
  unfold decode
  split <;> rfl

@[simp] theorem condInv_decode (w : Word) : (decode w).condInv = w.getLsbD 15 := by
  unfold decode
  split <;> exact Eq.symm ‹w.getLsbD 15 = _›

@[simp] theorem condSel_decode (w : Word) : (decode w).condSel = w.extractLsb' 12 3 := by
  rw [condSel_bits]
  unfold decode
  split <;> simp only [*] <;> rfl

/-- The operand bits of a word are its bits 11 to 0 (R60). -/
theorem bits_operandsOf (w : Word) : (operandsOf w).bits = w.extractLsb' 0 12 := by
  simp only [Operands.bits, operandsOf, ofBool_getLsbD_eq_extractLsb',
    BitVec.extractLsb'_append_extractLsb'_eq_extractLsb']

/-- The opcode of a word's form is its bits 15 to 12 (R70). -/
theorem opcode_decode (w : Word) : (decode w).opcode = w.extractLsb' 12 4 := by
  rw [Instr.opcode, condInv_decode, condSel_decode, ofBool_getLsbD_eq_extractLsb']
  exact BitVec.extractLsb'_append_extractLsb'_eq_extractLsb' rfl

/-- No bit of a word is lost in decoding (R68). -/
@[simp] theorem encode_decode (w : Word) : encode (decode w) = w := by
  rw [encode, opcode_decode, operands_decode, bits_operandsOf]
  exact (BitVec.extractLsb'_append_extractLsb'_eq_extractLsb' rfl).trans BitVec.extractLsb'_eq_self

theorem isReserved_iff (w : Word) : isReserved w = true ↔ w.extractLsb' 12 3 = 6 := beq_iff_eq

namespace Machine

/-! ## A step of the engine (spec/41_engine.md R111, R115) -/

/-- `(pc + 1) mod 256` in natural numbers (R115). -/
theorem sequentialPc_eq (pc : StoreIndex) :
    sequentialPc pc = BitVec.ofNat 8 ((pc.toNat + 1) % 256) := by
  apply BitVec.eq_of_toNat_eq
  simp [sequentialPc, BitVec.toNat_add]

/-- The selector's answer to a word on a snapshot: its index and inversion are the word's own (R111). -/
def selectorAnswer (w : Word) (inp : ConditionInputs) : Except Fault Bool :=
  evaluate (w.getLsbD 15) (w.extractLsb' 12 3).toNat inp

/-- Every index of three bits other than 6 has a value (R91). -/
theorem evaluate_condSel_ok (v : Bool) {c : CondSel} (hc : c ≠ 6) (inp : ConditionInputs) :
    ∃ taken, evaluate v c.toNat inp = .ok taken := by
  have hlt : c.toNat < 8 := c.isLt
  have hne : c.toNat ≠ 6 := fun h => hc (BitVec.eq_of_toNat_eq h)
  interval_cases c.toNat <;> simp at hne ⊢

theorem selectorAnswer_of_reserved {w : Word} (h : isReserved w = true) (inp : ConditionInputs) :
    selectorAnswer w inp = .error .reservedCondSel := by
  rw [selectorAnswer, (isReserved_iff w).mp h]
  rfl

theorem selectorAnswer_of_not_reserved {w : Word} (h : ¬ isReserved w = true)
    (inp : ConditionInputs) : ∃ taken, selectorAnswer w inp = .ok taken :=
  evaluate_condSel_ok _ (mt (isReserved_iff w).mpr h) inp

/-- All sixteen forms have one meaning: the selector's answer for the form, concluded (R111). -/
theorem exec_eq_concludeStep (i : Instr) (s : State) :
    exec i s = concludeStep i (evaluate i.condInv i.condSel.toNat s.inputs) s := by
  cases i <;> rfl

/-- A decoded word runs on the selector's answer to that word. -/
theorem exec_decode (w : Word) (s : State) :
    exec (decode w) s = concludeStep (decode w) (selectorAnswer w s.inputs) s := by
  rw [exec_eq_concludeStep, condInv_decode, condSel_decode, selectorAnswer]

/-- The effect of a step on a word that is not reserved. -/
def stepped (inp : ConditionInputs) (taken : Bool) (s : State) : State :=
  latch (fetchInstr s) taken { s with inputs := inp }

/-- The effect of a step on a reserved word. -/
def stepFaulted (inp : ConditionInputs) (s : State) : State :=
  enterFault .reservedCondSel (fetchWord s) { s with inputs := inp }

@[simp] theorem stepped_pc (inp : ConditionInputs) (taken : Bool) (s : State) :
    (stepped inp taken s).pc = nextPc taken (operandsOf (fetchWord s)) s.pc := by
  simp [stepped, fetchInstr]
@[simp] theorem stepped_store (inp : ConditionInputs) (taken : Bool) (s : State) :
    (stepped inp taken s).store = s.store := rfl
@[simp] theorem stepped_len (inp : ConditionInputs) (taken : Bool) (s : State) :
    (stepped inp taken s).len = s.len := rfl
@[simp] theorem stepped_fault (inp : ConditionInputs) (taken : Bool) (s : State) :
    (stepped inp taken s).fault = s.fault := rfl
@[simp] theorem stepFaulted_pc (inp : ConditionInputs) (s : State) :
    (stepFaulted inp s).pc = s.pc := rfl
@[simp] theorem stepFaulted_store (inp : ConditionInputs) (s : State) :
    (stepFaulted inp s).store = s.store := rfl
@[simp] theorem stepFaulted_len (inp : ConditionInputs) (s : State) :
    (stepFaulted inp s).len = s.len := rfl
@[simp] theorem stepFaulted_out (inp : ConditionInputs) (s : State) :
    (stepFaulted inp s).out = s.out := rfl
@[simp] theorem stepFaulted_fault (inp : ConditionInputs) (s : State) :
    (stepFaulted inp s).fault =
      { active := true, reason := .reservedCondSel, fpc := s.pc, fword := fetchWord s } := rfl

/-- Everything an unfaulted step can do (R111). -/
theorem hostStep_unfaulted_cases (inp : ConditionInputs) {s : State} (hs : s.fault.active = false) :
    (isReserved (fetchWord s) = true ∧ hostStep inp s = .next (stepFaulted inp s)) ∨
    (∃ taken, selectorAnswer (fetchWord s) inp = .ok taken ∧
      hostStep inp s = .next (stepped inp taken s)) := by
  have hexec : hostStep inp s = concludeStep (decode (fetchWord s))
      (selectorAnswer (fetchWord s) inp) { s with inputs := inp } := by
    simp [hostStep, hs, fetchInstr, exec_decode]
  by_cases hw : isReserved (fetchWord s) = true
  · left
    rw [hexec, selectorAnswer_of_reserved hw, concludeStep_error, encode_decode]
    exact ⟨hw, rfl⟩
  · right
    obtain ⟨taken, htaken⟩ := selectorAnswer_of_not_reserved hw inp
    rw [hexec, htaken]
    exact ⟨taken, rfl, rfl⟩

/-! ## A transition of the machine (spec/10_state.md R36) -/

/-- The next states that `s` can have, by the transaction performed. -/
inductive Transition (s : State) : State → Prop
  /-- `reset()` (R190). -/
  | reset (hnext : nextTransaction s = .reset) : Transition s (clearEngine (takeTransaction s))
  /-- `load(p)` of a program that fits (R121). -/
  | load (p : List Record) (hnext : nextTransaction s = .load p) (hfits : p.length ≤ 256) :
    Transition s (installProgram p (takeTransaction s))
  /-- `step(inputs)` on a word for which the selector answers (R115, R116). -/
  | advance (inp : ConditionInputs) (taken : Bool) (hnext : nextTransaction s = .step inp)
    (hsel : selectorAnswer (fetchWord s) inp = .ok taken) :
    Transition s (stepped inp taken (takeTransaction s))
  /-- `step(inputs)` on a reserved word: fault entry (R172). -/
  | fault (inp : ConditionInputs) (hnext : nextTransaction s = .step inp)
    (hreserved : isReserved (fetchWord s) = true) :
    Transition s (stepFaulted inp (takeTransaction s))

/-- Only an unfaulted machine answers a next state (R174), and it does so by a transition. -/
theorem step_transition {s t : State} (h : step s = .next t) :
    s.fault.active = false ∧ Transition s t := by
  unfold step at h
  cases hnext : nextTransaction s with
  | reset =>
    rw [hnext] at h
    obtain ⟨_, heq⟩ | ⟨hs, heq⟩ := hostReset_cases (takeTransaction s) <;>
      cases heq.symm.trans h
    exact ⟨by simpa using hs, .reset hnext⟩
  | load p =>
    rw [hnext] at h
    obtain ⟨_, heq⟩ | ⟨hs, hfits, heq⟩ | ⟨_, _, heq⟩ := hostLoad_cases p (takeTransaction s) <;>
      cases heq.symm.trans h
    exact ⟨by simpa using hs, .load p hnext hfits⟩
  | step inp =>
    rw [hnext] at h
    obtain ⟨_, heq⟩ | ⟨hs, _⟩ := hostStep_cases inp (takeTransaction s)
    · cases heq.symm.trans h
    · refine ⟨by simpa using hs, ?_⟩
      obtain ⟨hw, heq⟩ | ⟨taken, hsel, heq⟩ := hostStep_unfaulted_cases inp hs <;>
        cases heq.symm.trans h
      · exact .fault inp hnext (by simpa using hw)
      · exact .advance inp taken hnext (by simpa using hsel)

/-! ## The statements of spec/10_state.md -/

/-- While no fault is active, only a write of the fault register can spoil its consistency (R29). -/
theorem FaultReg.consistent_of_fault_eq {s t : State} (hs : s.fault.active = false)
    (hc : FaultReg.consistent s = true) (ht : t.fault = s.fault) :
    FaultReg.consistent t = true := by
  simpa [FaultReg.consistent, ht, hs] using hc

/-- Fault entry on a reserved word records exactly what R172 lists. -/
theorem FaultReg.consistent_stepFaulted (inp : ConditionInputs) {s : State}
    (hw : isReserved (fetchWord s) = true) :
    FaultReg.consistent (stepFaulted inp s) = true := by
  have hfetch : fetchWord (stepFaulted inp s) = fetchWord s := fetchWord_congr rfl rfl
  simp [FaultReg.consistent, hfetch, hw]

/-- Settles O50: the store is written by `reset` and `load` only, and the fault register by fault entry
only, which happens on a reserved word. -/
theorem stepKeepsTheInvariant : Obligations.StepKeepsTheInvariant := by
  intro s t ⟨hwf, hlen, hcons⟩ h
  obtain ⟨hactive, htrans⟩ := step_transition h
  cases htrans with
  | reset =>
    exact ⟨Memory.wf_nil, by simp, FaultReg.consistent_of_fault_eq hactive hcons (by simp)⟩
  | load p _ hfits =>
    refine ⟨?_, ?_, FaultReg.consistent_of_fault_eq hactive hcons (by simp)⟩
    · simpa using Memory.wf_writeProgram (first := 0) (by omega) hwf
    · simpa using (Nat.mod_le p.length 512).trans hfits
  | advance inp taken =>
    exact ⟨by simpa using hwf, by simpa using hlen,
      FaultReg.consistent_of_fault_eq hactive hcons (by simp)⟩
  | fault inp _ hreserved =>
    exact ⟨by simpa using hwf, by simpa using hlen,
      FaultReg.consistent_stepFaulted inp (by simpa using hreserved)⟩

/-- Settles O36: each transition leaves unwritten what R36 does not list for it. -/
theorem eachOperationWritesOnlyItsOwnState : Obligations.EachOperationWritesOnlyItsOwnState := by
  intro s t h
  obtain ⟨_, htrans⟩ := step_transition h
  cases htrans with
  | reset hnext => simp [hnext]
  | load p hnext => simp [hnext]
  | advance inp taken hnext => simp [hnext]
  | fault inp hnext => simp [hnext]

/-- Settles O37: the selector's answer for the fetched word chooses between R22's two ways; a reserved
word has no answer and faults (R172). -/
theorem programCounterMovesOnlyAsTheRuleAllows :
    Obligations.ProgramCounterMovesOnlyAsTheRuleAllows := by
  intro s t h
  obtain ⟨_, htrans⟩ := step_transition h
  cases htrans with
  | reset hnext => simp [hnext]
  | load p hnext => simp [hnext]
  | advance inp taken hnext hsel =>
    refine ⟨fun inp' hinp => ?_, by simp [hnext], by simp [hnext]⟩
    cases hnext.symm.trans hinp
    cases taken with
    | true => exact .inl ⟨hsel, by simp [nextPc, targetPc, operandsOf]⟩
    | false => exact .inr (.inl ⟨hsel, by simp [nextPc, sequentialPc_eq]⟩)
  | fault inp hnext hreserved => simp [hnext, hreserved]

end Machine
end Sys2Proof
end

section
/-! PROOFS. What one instruction can do, told apart by the reserved index; then the statements of
spec/20_memory.md: instructions keep the store and do not read it, and the host's reads of it are bounded. -/

namespace Sys2Proof.Machine

/-- A reserved form takes the fault, whatever the snapshot (R160, R161, R172). -/
theorem exec_of_reserved {i : Instr} (hi : i.condSel = 6) (s : State) :
    exec i s = .next (enterFault .reservedCondSel (encode i) s) := by
  rw [exec_eq_concludeStep, hi]
  rfl

/-- Everything an instruction can do (R111): a reserved form faults, any other form is a successful step. -/
theorem exec_cases (i : Instr) (s : State) :
    (i.condSel = 6 ∧ exec i s = .next (enterFault .reservedCondSel (encode i) s)) ∨
    (i.condSel ≠ 6 ∧ ∃ taken, evaluate i.condInv i.condSel.toNat s.inputs = .ok taken ∧
      exec i s = .next (latch i taken s)) := by
  by_cases hi : i.condSel = 6
  · exact .inl ⟨hi, exec_of_reserved hi s⟩
  · obtain ⟨taken, hsel⟩ := evaluate_condSel_ok i.condInv hi s.inputs
    exact .inr ⟨hi, taken, hsel, by rw [exec_eq_concludeStep, hsel, concludeStep_ok]⟩

/-- No instruction reads the store: other contents are carried along (R41). -/
theorem exec_with_store {i : Instr} {s t : State} (h : exec i s = .next t) (m : Memory) :
    exec i { s with store := m } = .next { t with store := m } := by
  rw [exec_eq_concludeStep] at h ⊢
  obtain ⟨taken, hsel, heq⟩ | ⟨f, hsel, heq⟩ :=
    concludeStep_cases i (evaluate i.condInv i.condSel.toNat s.inputs) s <;>
    cases heq.symm.trans h
  · rw [hsel, concludeStep_ok]
    rfl
  · rw [hsel, concludeStep_error]
    rfl

/-- Settles O27: an instruction either latches or enters the fault, and neither writes the store. -/
theorem instructionsNeverTouchMemory : Obligations.InstructionsNeverTouchMemory := by
  intro i s t h
  have hstore := exec_with_store h
  obtain ⟨hi, heq⟩ | ⟨hi, taken, _, heq⟩ := exec_cases i s <;> cases heq.symm.trans h
  · exact ⟨wordAt_congr rfl, rfl, rfl, rfl, rfl, fun hne => absurd hi hne, fun _ => ⟨rfl, rfl⟩, hstore⟩
  · exact ⟨wordAt_congr rfl, rfl, rfl, rfl, rfl, fun _ => rfl, fun hsix => absurd hsix hi, hstore⟩

/-- Settles O49: the read has exactly two cases, and an eight-bit `pc` always lies in the first (R54). -/
theorem wordReadsAreBounded : Obligations.WordReadsAreBounded := fun s =>
  ⟨fun _ ha => wordAt_of_lt ha s, fun _ ha => wordAt_of_ge ha s, wordAt_of_lt s.pc.isLt s⟩

end Sys2Proof.Machine
end

section
/-! PROOFS. The codec read as arithmetic on a word's number, its round trips on instructions and on host
records, the opcode map, and the assembler notation; then the statements of spec/30_encoding.md. -/

namespace Sys2Proof

/-! ## The round trip of an instruction (spec/30_encoding.md R68) -/

/-- The opcode and the operands of an encoded form are its own, and the opcode map reads nothing else. -/
@[simp] theorem decode_encode (i : Instr) : decode (encode i) = i := by
  have hops : operandsOf (encode i) = i.operands := operandsOf_append _ _
  have hbit (k : Nat) : (encode i).getLsbD (12 + k) = i.opcode.getLsbD k :=
    getLsbD_append_high _ _ k
  rw [decode, hbit 3, hbit 2, hbit 1, hbit 0, hops]
  cases i <;> simp

/-- Settles O4: `encode` undoes `decode` and `decode` undoes `encode`. -/
theorem decodeAndEncodeAreInverse : Obligations.DecodeAndEncodeAreInverse :=
  ⟨decode_encode, encode_decode, Function.LeftInverse.injective encode_decode⟩

/-! ## Decoding as arithmetic (R65) -/

theorem getLsbD_eq_decide {n : Nat} (w : BitVec n) (k : Nat) :
    w.getLsbD k = decide (w.toNat / 2 ^ k % 2 = 1) :=
  Nat.testBit_eq_decide_div_mod_eq

theorem toNat_extractLsb'_eq {n : Nat} (w : BitVec n) (start len : Nat) :
    (w.extractLsb' start len).toNat = w.toNat / 2 ^ start % 2 ^ len := by
  rw [BitVec.extractLsb'_toNat, Nat.shiftRight_eq_div_pow]

/-- The form of a word carries the word's seven fields. -/
@[simp] theorem fields_decode (w : Word) : (decode w).fields = decodeFields w := by
  rw [Instr.fields, operands_decode, condSel_decode, condInv_decode]
  rfl

/-- Settles O1: every field is a slice of the word, and a slice is a quotient modulo a power of two. -/
theorem decodeUnpacksTheSevenFields : Obligations.DecodeUnpacksTheSevenFields := fun w =>
  ⟨BitVec.extractLsb'_toNat 0 8 w,
    getLsbD_eq_decide w 8, getLsbD_eq_decide w 9, getLsbD_eq_decide w 10, getLsbD_eq_decide w 11,
    toNat_extractLsb'_eq w 12 3, getLsbD_eq_decide w 15, fields_decode w⟩

/-- The decoded fields of a word, as numbers. -/
theorem toRecord_decodeFields (w : Word) : (decodeFields w).toRecord =
    { jumpAddr     := w.toNat % 256
      reqMoveUp    := w.toNat / 256 % 2
      reqMoveDown  := w.toNat / 512 % 2
      reqDoorState := w.toNat / 1024 % 2
      reqReset     := w.toNat / 2048 % 2
      condSel      := w.toNat / 4096 % 8
      condInv      := w.toNat / 32768 % 2 } := by
  simp [Fields.toRecord, decodeFields, BitVec.getLsbD, Nat.toNat_testBit,
    Nat.shiftRight_eq_div_pow]

/-! ## A host's record (R66, R67) -/

/-- A field placed above every bit of what is packed so far is added. -/
theorem or_shiftLeft_of_lt {low k : Nat} (field : Nat) (h : low < 2 ^ k) :
    low ||| field <<< k = low + 2 ^ k * field := by
  rw [Nat.or_comm, ← Nat.shiftLeft_add_eq_or_of_lt h, Nat.shiftLeft_eq, Nat.mul_comm, Nat.add_comm]

/-- Settles O2: the masks are remainders, and no field reaches the place of the next. -/
theorem encodeKeepsOnlyTheLowBits : Obligations.EncodeKeepsOnlyTheLowBits := by
  intro r
  have hmask8 : r.jumpAddr &&& 0xFF = r.jumpAddr % 256 := Nat.and_two_pow_sub_one_eq_mod _ 8
  have hmask3 : r.condSel &&& 7 = r.condSel % 8 := Nat.and_two_pow_sub_one_eq_mod _ 3
  simp only [Record.encode, hmask8, hmask3, Nat.and_one_is_mod, BitVec.toNat_ofNat]
  rw [or_shiftLeft_of_lt (k := 8) _ (by omega), or_shiftLeft_of_lt (k := 9) _ (by omega),
    or_shiftLeft_of_lt (k := 10) _ (by omega), or_shiftLeft_of_lt (k := 11) _ (by omega),
    or_shiftLeft_of_lt (k := 12) _ (by omega), or_shiftLeft_of_lt (k := 15) _ (by omega)]
  omega

/-- A record comes back with each field modulo its range (R67). -/
theorem toRecord_decodeFields_encode (r : Record) :
    (decodeFields r.encode).toRecord = r.truncated := by
  rw [toRecord_decodeFields, encodeKeepsOnlyTheLowBits r, Record.truncated, Record.mk.injEq]
  omega

/-- A record in range is its own truncation (R25). -/
theorem Record.truncated_of_wellFormed {r : Record} (h : r.wellFormed = true) :
    r.truncated = r := by
  simp only [Record.wellFormed, Bool.and_eq_true, decide_eq_true_eq] at h
  obtain ⟨⟨⟨⟨⟨⟨hjump, hup⟩, hdown⟩, hdoor⟩, hreset⟩, hsel⟩, hinv⟩ := h
  simp only [Record.truncated, Nat.mod_eq_of_lt, hjump, hup, hdown, hdoor, hreset, hsel, hinv]

/-- Settles O3: a record in range is its own truncation, and the examples are two fields of one. -/
theorem recordRoundTrip : Obligations.RecordRoundTrip := by
  refine ⟨fun r hr => ?_, toRecord_decodeFields_encode, fun r hjump hsel => ?_⟩
  · rw [toRecord_decodeFields_encode, Record.truncated_of_wellFormed hr]
  · have hback := toRecord_decodeFields_encode r
    have hjump' := congrArg Record.jumpAddr hback
    have hsel' := congrArg Record.condSel hback
    rw [Record.truncated, hjump] at hjump'
    rw [Record.truncated, hsel] at hsel'
    exact ⟨BitVec.eq_of_toNat_eq hjump', BitVec.eq_of_toNat_eq hsel'⟩

/-! ## The opcode map (R70, R71) -/

/-- Masked with 0x7000, a word keeps its `cond_sel` in place. -/
theorem and_0x7000 (w : Word) : w &&& 0x7000#16 = (w.extractLsb' 12 3).setWidth 16 <<< 12 := by
  ext k hk
  interval_cases k <;> simp

theorem isReserved_iff_and (w : Word) : isReserved w = true ↔ w &&& 0x7000#16 = 0x6000#16 := by
  have hplaced : ∀ c : CondSel, c = 6 ↔ c.setWidth 16 <<< 12 = 0x6000#16 := by decide
  rw [isReserved_iff, and_0x7000, hplaced]

/-- The reserved index belongs to the two reserved forms alone. -/
theorem Instr.condSel_eq_six_iff (i : Instr) :
    i.condSel = 6 ↔ i = .rsv6 i.operands ∨ i = .rsv6n i.operands := by
  cases i <;> simp

/-- Settles O6: the parts of a decoded word are slices of it, and index 6 marks the reserved forms. -/
theorem opcodeMapPartitionsTheWords : Obligations.OpcodeMapPartitionsTheWords := by
  intro w
  have hmatch : encode (decode w) &&& 0xF000#16 = (decode w).opcode.setWidth 16 <<< 12 :=
    Laws.encode_match _ _
  rw [encode_decode] at hmatch
  have hforms := (decode w).condSel_eq_six_iff
  rw [condSel_decode, operands_decode] at hforms
  exact ⟨opcode_decode w, hmatch, operands_decode w, condSel_decode w, condInv_decode w,
    isReserved_iff_and w, (isReserved_iff w).trans hforms⟩

namespace Machine

/-! ## The assembler notation (R74) -/

/-- The mnemonic of an instruction names its form. -/
theorem formOfMnemonic_mnemonic (i : Instr) :
    ∃ form, formOfMnemonic (Instr.mnemonic i) = some form ∧ form i.operands = i := by
  cases i <;> exact ⟨_, rfl, rfl⟩

/-- The flags written for operands give their command bits back. -/
theorem flagOperands_operandFlags (o : Operands) :
    flagOperands o.jumpAddr (operandFlags o) = o := by
  simp [flagOperands, operandFlags]

theorem assemble_disassemble (labels : List (String × Nat)) (i : Instr) :
    assemble labels (disassemble i) = some i := by
  obtain ⟨form, hform, hi⟩ := formOfMnemonic_mnemonic i
  have hlt : i.operands.jumpAddr.toNat < 256 := i.operands.jumpAddr.isLt
  simp [assemble, disassemble, targetNumber, hform, hlt, flagOperands_operandFlags, hi]

theorem assemble_of_large_target {labels : List (String × Nat)} {l : AsmLine} {n : Nat}
    (hn : targetNumber labels l.target = some n) (hlarge : 256 ≤ n) : assemble labels l = none := by
  rw [assemble, hn]
  cases formOfMnemonic l.mnemonic with
  | none => rfl
  | some form => exact if_neg (Nat.not_lt.mpr hlarge)

theorem assemble_of_undefined_target {labels : List (String × Nat)} {l : AsmLine}
    (hn : targetNumber labels l.target = none) : assemble labels l = none := by
  rw [assemble, hn]

/-- Settles O8: a line's mnemonic, target and flags each read back, and a target is checked first. -/
theorem assemblerReadsBackEveryInstruction : Obligations.AssemblerReadsBackEveryInstruction :=
  fun labels => ⟨assemble_disassemble labels, fun _ _ => assemble_of_large_target,
    fun _ => assemble_of_undefined_target⟩

/-! ## The pseudo-instructions (R75) -/

/-- A successful step in the terms of the claims (R115, R116). -/
theorem latch_eq_branched (i : Instr) (taken : Bool) (s : State) :
    latch i taken s =
      branched i.operands.jumpAddr taken (outputOf i.operands i.condSel i.condInv) s := by
  rw [latch, nextPc, sequentialPc_eq]
  rfl

/-- An instruction for which the selector answers branches on the answer. -/
theorem exec_eq_branched {i : Instr} {s : State} {taken : Bool}
    (h : evaluate i.condInv i.condSel.toNat s.inputs = .ok taken) :
    exec i s = .next
      (branched i.operands.jumpAddr taken (outputOf i.operands i.condSel i.condInv) s) := by
  rw [exec_eq_concludeStep, h, concludeStep_ok, latch_eq_branched]

/-- The inversion negates the selector's answer and leaves a fault a fault (R90, R96). -/
theorem evaluate_true (index : Nat) (inp : ConditionInputs) :
    evaluate true index inp = (evaluate false index inp).map not := by
  unfold evaluate
  cases selectSource index inp with
  | error f => rfl
  | ok source => simp [Except.map]

/-- The selector index of a wait condition (R75, R91). -/
def WaitCond.condSel : WaitCond → CondSel
  | .any    => 0
  | .below  => 1
  | .same   => 2
  | .above  => 3
  | .closed => 4
  | .opened => 5

theorem exec_branchIf {c : WaitCond} {o : Operands} {s : State} {taken : Bool}
    (h : evaluate false c.condSel.toNat s.inputs = .ok taken) :
    exec (branchIf c o) s = .next (branched o.jumpAddr taken (outputOf o c.condSel false) s) := by
  cases c <;> exact exec_eq_branched h

theorem exec_branchUnless {c : WaitCond} {o : Operands} {s : State} {taken : Bool}
    (h : evaluate true c.condSel.toNat s.inputs = .ok taken) :
    exec (branchUnless c o) s =
      .next (branched o.jumpAddr taken (outputOf o c.condSel true) s) := by
  cases c <;> exact exec_eq_branched h

/-- Settles O28: `WAITUNTIL` is `BRN.<c>` and `WAITWHILE` is `BR.<c>` to the own address, and `FALL` is
`NEXT`, which never branches. -/
theorem waitLoopsHoldAndRelease : Obligations.WaitLoopsHoldAndRelease := by
  intro a flags s _
  constructor
  · exact exec_eq_branched (i := .next _) (evaluate_fixed false s.inputs)
  · intro c sel holds hindex hholds
    have hsel : sel = c.condSel := BitVec.eq_of_toNat_eq (by rw [hindex]; cases c <;> rfl)
    subst hsel
    exact ⟨exec_branchUnless (by rw [evaluate_true, hholds]; rfl), exec_branchIf hholds⟩

end Machine
end Sys2Proof
end

section
/-! PROOFS. The selector over every natural index, and the input port that each step overwrites before it is
read; then the statements of spec/40_condition_selector.md. -/

namespace Sys2Proof.Machine

/-! ## The selector's three answers (R95, R96, R97) -/

/-- An index of 8 or more faults, whatever the inversion and the snapshot (R97). -/
theorem evaluate_of_ge {index : Nat} (h : 8 ≤ index) (v : Bool) (inp : ConditionInputs) :
    evaluate v index inp = .error .condSelOutOfRange := by
  obtain ⟨k, rfl⟩ := Nat.exists_eq_add_of_le' h
  rfl

/-- An index that fits the 3-bit field and is not the reserved one selects a value (R95). -/
theorem evaluate_of_lt {index : Nat} (h : index < 8) (h6 : index ≠ 6) (v : Bool)
    (inp : ConditionInputs) : ∃ b, evaluate v index inp = .ok b := by
  have hindex : (BitVec.ofNat 3 index).toNat = index := Nat.mod_eq_of_lt h
  have hsel : BitVec.ofNat 3 index ≠ 6 := fun heq => h6 (by rw [← hindex, heq]; rfl)
  simpa only [hindex] using evaluate_condSel_ok v hsel inp

/-- Everything the selector can answer (R90). -/
theorem evaluate_cases (v : Bool) (index : Nat) (inp : ConditionInputs) :
    (index = 6 ∧ evaluate v index inp = .error .reservedCondSel) ∨
    (8 ≤ index ∧ evaluate v index inp = .error .condSelOutOfRange) ∨
    (index < 8 ∧ index ≠ 6 ∧ ∃ b, evaluate v index inp = .ok b) := by
  by_cases hge : 8 ≤ index
  · exact .inr (.inl ⟨hge, evaluate_of_ge hge v inp⟩)
  by_cases h6 : index = 6
  · exact .inl ⟨h6, h6 ▸ evaluate_reserved v inp⟩
  · have hlt : index < 8 := Nat.lt_of_not_le hge
    exact .inr (.inr ⟨hlt, h6, evaluate_of_lt hlt h6 v inp⟩)

/-- Settles O10: the selector's three answers exclude each other, and so do their ranges of indices; a
3-bit index lies below 8. -/
theorem selectorFailsExactlyOnBadIndices : Obligations.SelectorFailsExactlyOnBadIndices := by
  have hanswers (v : Bool) (index : Nat) (inp : ConditionInputs) :
      (evaluate v index inp = .error .reservedCondSel ↔ index = 6) ∧
      (evaluate v index inp = .error .condSelOutOfRange ↔ 8 ≤ index) ∧
      ((∃ b, evaluate v index inp = .ok b) ↔ index < 8 ∧ index ≠ 6) := by
    obtain ⟨rfl, _⟩ | ⟨hge, heq⟩ | ⟨hlt, hne, b, heq⟩ := evaluate_cases v index inp
    · simp
    · simp [heq, hge, show index ≠ 6 by omega]
    · simp [heq, hlt, hne]
  refine ⟨hanswers, fun v sel inp => ?_⟩
  obtain ⟨_, hrange, _⟩ := hanswers v sel.toNat inp
  exact mt hrange.mp (Nat.not_le.mpr sel.isLt)

/-- Settles O9: the table is the selector's own laws, index by index. -/
theorem selectorTable : Obligations.SelectorTable := fun v inp =>
  ⟨evaluate_any v inp, evaluate_below v inp, evaluate_same v inp, evaluate_above v inp,
    evaluate_closed v inp, evaluate_open v inp, evaluate_reserved v inp,
    by rw [evaluate_fixed, Bool.false_xor], evaluate_fixed true inp, evaluate_fixed false inp⟩

/-! ## The input port (R34, R98; log 4) -/

/-- The choice of the next transaction does not look at the input port. -/
theorem nextTransaction_with_inputs (s : State) (x : ConditionInputs) :
    nextTransaction { s with inputs := x } = nextTransaction s := rfl

/-- Taking the next transaction carries the input port along. -/
theorem takeTransaction_with_inputs (s : State) (x : ConditionInputs) :
    takeTransaction { s with inputs := x } = { takeTransaction s with inputs := x } := by
  unfold takeTransaction
  cases s.pending with
  | nil => rfl
  | cons t ts => rfl

/-- A step overwrites the input port before the selector reads it. -/
theorem hostStep_with_inputs (inp x : ConditionInputs) (s : State) :
    hostStep inp { s with inputs := x } = hostStep inp s := rfl

/-- Settles O34: an earlier snapshot is carried to the step, which replaces it by its own. -/
theorem earlierInputsAreNeverRead : Obligations.EarlierInputsAreNeverRead := by
  intro s x inp hnext
  rw [step, step, nextTransaction_with_inputs, takeTransaction_with_inputs, hnext]
  exact hostStep_with_inputs inp x (takeTransaction s)

end Sys2Proof.Machine
end

section
/-! PROOFS. The machine's step as one equation per kind of transaction, and the words of a loaded program; then
the statements of spec/41_engine.md about a step and a load. -/

namespace Sys2Proof

/-- The 16-bit view of a word's seven fields is the word (R28, R60). -/
@[simp] theorem word_decodeFields (w : Word) : (decodeFields w).word = w := by
  simp only [Fields.word, decodeFields, ofBool_getLsbD_eq_extractLsb',
    BitVec.extractLsb'_append_extractLsb'_eq_extractLsb']
  exact BitVec.extractLsb'_eq_self

/-- The table's bits of a 16-bit instruction are the word of that number (R73). -/
theorem tableWord_sixteen (w : Nat) : tableWord 16 w = BitVec.ofNat 16 w :=
  BitVec.eq_of_toNat_eq (by simp [tableWord])

namespace Machine

/-- Settles O26: all forms conclude the selector's answer, which is a latch or a fault entry. -/
theorem everyFormIsTheOneControlCycle : Obligations.EveryFormIsTheOneControlCycle := by
  intro i s
  constructor
  · intro taken hsel
    exact exec_eq_branched hsel
  · intro f hsel
    rw [exec_eq_concludeStep, hsel, concludeStep_error]
    rfl

/-! ## A step transaction of the machine (R111) -/

theorem step_eq_hostStep {s : State} {inp : ConditionInputs} (hnext : nextTransaction s = .step inp) :
    step s = hostStep inp (takeTransaction s) := by
  rw [step, hnext, perform]

section UnfaultedStep
variable {s : State} {inp : ConditionInputs}

/-- Without a fault, a step runs the form of the fetched word on this step's snapshot (R111 to R113). -/
theorem step_eq_exec (hs : s.fault.active = false) (hnext : nextTransaction s = .step inp) :
    step s = exec (fetchInstr s) { takeTransaction s with inputs := inp } := by
  rw [step_eq_hostStep hnext]
  simp [hostStep, hs]

/-- A step on a reserved word enters the fault (R172). -/
theorem step_of_reserved (hs : s.fault.active = false) (hnext : nextTransaction s = .step inp)
    (hw : isReserved (fetchWord s) = true) :
    step s = .next (stepFaulted inp (takeTransaction s)) := by
  rw [step_eq_exec hs hnext, fetchInstr, exec_decode, selectorAnswer_of_reserved hw,
    concludeStep_error, encode_decode, stepFaulted, fetchWord_takeTransaction]

/-- A step on a word for which the selector answers latches that word (R115, R116). -/
theorem step_of_selectorAnswer (hs : s.fault.active = false) (hnext : nextTransaction s = .step inp)
    {taken : Bool} (hsel : selectorAnswer (fetchWord s) inp = .ok taken) :
    step s = .next (stepped inp taken (takeTransaction s)) := by
  rw [step_eq_exec hs hnext, fetchInstr, exec_decode, hsel, concludeStep_ok, stepped,
    fetchInstr_takeTransaction, fetchInstr]

/-- Everything a step without a fault can do. -/
theorem step_unfaulted_cases (hs : s.fault.active = false) (hnext : nextTransaction s = .step inp) :
    (isReserved (fetchWord s) = true ∧ step s = .next (stepFaulted inp (takeTransaction s))) ∨
    (isReserved (fetchWord s) = false ∧ ∃ taken, selectorAnswer (fetchWord s) inp = .ok taken ∧
      step s = .next (stepped inp taken (takeTransaction s))) := by
  cases hw : isReserved (fetchWord s) with
  | true => exact .inl ⟨rfl, step_of_reserved hs hnext hw⟩
  | false =>
    obtain ⟨taken, hsel⟩ := selectorAnswer_of_not_reserved (Bool.eq_false_iff.mp hw) inp
    exact .inr ⟨rfl, taken, hsel, step_of_selectorAnswer hs hnext hsel⟩

end UnfaultedStep

/-- A successful step latches the seven fields of the fetched word (R116). -/
@[simp] theorem stepped_out (inp : ConditionInputs) (taken : Bool) (s : State) :
    (stepped inp taken s).out = decodeFields (fetchWord s) := by
  simp [stepped, fetchInstr]

/-- The next `pc` over the raw bits of the word (R115). -/
theorem nextPc_operandsOf (taken : Bool) (w : Word) (pc : StoreIndex) :
    nextPc taken (operandsOf w) pc =
      if taken then w.extractLsb' 0 8 else BitVec.ofNat 8 ((pc.toNat + 1) % 256) := by
  rw [nextPc, sequentialPc_eq]
  rfl

/-! ## What a step does -/

/-- Settles O29: taking the transaction off the list, or counting the draw, leaves the fetch unchanged. -/
theorem stepRunsTheDecodedInstruction : Obligations.StepRunsTheDecodedInstruction := by
  intro s hs
  constructor
  · intro inp rest hpending
    rw [step_eq_exec hs (nextTransaction_of_pending hpending), takeTransaction_of_pending hpending]
    rfl
  · intro hidle
    rw [step_eq_exec hs (nextTransaction_of_idle hidle), takeTransaction_of_idle hidle]
    rfl

/-- Settles O31: the selector answers, so the step is successful and its `pc` is the rule's. -/
theorem stepFollowsTheBranchRule : Obligations.StepFollowsTheBranchRule := by
  intro s inp hs hnext taken hsel
  have hpc : (stepped inp taken (takeTransaction s)).pc =
      if taken then (fetchWord s).extractLsb' 0 8
      else BitVec.ofNat 8 ((s.pc.toNat + 1) % 256) := by
    simp [nextPc_operandsOf]
  refine ⟨_, step_of_selectorAnswer hs hnext hsel, hpc, ?_, ?_⟩
  · rintro rfl hself
    exact hpc.trans hself
  · rintro rfl hlast
    rw [hpc, hlast]
    rfl

/-- Settles O32: a word that is not reserved has a selector answer, and its step latches the word. -/
theorem successfulStepLatchesTheFetchedWord : Obligations.SuccessfulStepLatchesTheFetchedWord := by
  intro s inp hs hnext hw
  obtain ⟨taken, hsel⟩ := selectorAnswer_of_not_reserved (Bool.eq_false_iff.mp hw) inp
  exact ⟨_, step_of_selectorAnswer hs hnext hsel, by simp, by simp [readOut],
    by simp [stepResult, hs], by simp⟩

/-- A step that ends without a fault is a successful one. -/
theorem eq_stepped_of_unfaulted {s t : State} {inp : ConditionInputs}
    (hs : s.fault.active = false) (hnext : nextTransaction s = .step inp)
    (h : step s = .next t) (ht : t.fault.active = false) :
    ∃ taken, selectorAnswer (fetchWord s) inp = .ok taken ∧
      t = stepped inp taken (takeTransaction s) := by
  obtain ⟨_, heq⟩ | ⟨_, taken, hsel, heq⟩ := step_unfaulted_cases hs hnext <;>
    cases heq.symm.trans h
  · simp at ht
  · exact ⟨taken, hsel, rfl⟩

/-- Settles O33: `out` is a function of the fetched word, and `pc` one of the word, the old `pc` and the
selector's answer. -/
theorem outputIgnoresTheInputs : Obligations.OutputIgnoresTheInputs := by
  intro s s' inp inp' t t' hs hs' hnext hnext' hword h h' ht ht'
  obtain ⟨taken, hsel, rfl⟩ := eq_stepped_of_unfaulted hs hnext h ht
  obtain ⟨taken', hsel', rfl⟩ := eq_stepped_of_unfaulted hs' hnext' h' ht'
  refine ⟨by simp [hword], fun hpc hanswer => ?_⟩
  have hsame : selectorAnswer (fetchWord s') inp' = .ok taken := by
    rw [← hword]
    exact hanswer.symm.trans hsel
  cases hsame.symm.trans hsel'
  simp [hword, hpc]

/-- Taking the next transaction carries `len` along. -/
theorem takeTransaction_with_len (s : State) (l : Len) :
    takeTransaction { s with len := l } = { takeTransaction s with len := l } := by
  unfold takeTransaction
  cases s.pending with
  | nil => rfl
  | cons t ts => rfl

/-- Settles O35: both ends of a step keep the store and carry `len` along, and what they do is decided
by the fetched word and the snapshot alone. -/
theorem stepNeverWritesStoreNorTouchesLen : Obligations.StepNeverWritesStoreNorTouchesLen := by
  intro s t inp hnext h
  obtain ⟨hs, _⟩ := step_transition h
  obtain ⟨hw, heq⟩ | ⟨_, taken, hsel, heq⟩ := step_unfaulted_cases hs hnext <;>
    cases heq.symm.trans h
  · refine ⟨by simp, wordAt_congr (by simp), by simp, fun l => ?_, by simp, by simp⟩
    rw [step_of_reserved (s := { s with len := l }) hs hnext hw, takeTransaction_with_len]
    rfl
  · refine ⟨by simp, wordAt_congr (by simp), by simp, fun l => ?_, by simp, by simp [hs]⟩
    rw [step_of_selectorAnswer (s := { s with len := l }) hs hnext hsel, takeTransaction_with_len]
    rfl

/-- Settles O38: a reserved word enters the fault, any other word is latched, and both are next states. -/
theorem everyUnfaultedStepHasASuccessor : Obligations.EveryUnfaultedStepHasASuccessor := by
  intro s inp hs hnext
  obtain ⟨hw, heq⟩ | ⟨hw, taken, _, heq⟩ := step_unfaulted_cases hs hnext
  · exact ⟨_, heq, by simp [hw]⟩
  · exact ⟨_, heq, by simp [hw, hs]⟩

/-- Settles O30: the fetch reads back the word just written at `pc`, and the step asked for is on the
snapshot that already stands at the input port. -/
theorem placedWordRunsNext : Obligations.PlacedWordRunsNext := by
  intro s w hwf hs
  have hpending : (placeWord (BitVec.ofNat 16 w) s).pending = .step s.inputs :: s.pending := rfl
  have hfetch : fetchWord (placeWord (BitVec.ofNat 16 w) s) = BitVec.ofNat 16 w :=
    Memory.read_write_same hwf
  rw [State.withFetchWord, tableWord_sixteen,
    step_eq_exec (by simpa using hs) (nextTransaction_of_pending hpending),
    takeTransaction_of_pending hpending, fetchInstr, hfetch]
  rfl

/-! ## A load transaction of the machine (R121) -/

theorem step_eq_hostLoad {s : State} {p : List Record} (hnext : nextTransaction s = .load p) :
    step s = hostLoad p (takeTransaction s) := by
  rw [step, hnext, perform]

/-- Without a fault, a program that fits is installed. -/
theorem step_of_load {s : State} {p : List Record} (hs : s.fault.active = false)
    (hnext : nextTransaction s = .load p) (hfits : p.length ≤ 256) :
    step s = .next (installProgram p (takeTransaction s)) := by
  rw [step_eq_hostLoad hnext]
  simp [hostLoad, programFits, hs, hfits]

/-- Inside the program, an index holds the encoding of its record (R121). -/
theorem Memory.read_writeProgram_inside :
    ∀ {p : List Record} {m : Memory} {first k : Nat} (hk : k < p.length),
      first + p.length ≤ 256 → Memory.wf m = true →
      Memory.read (Memory.writeProgram m first p) (first + k) = (p[k]).encode
  | r :: p, m, first, 0, _, _, hm => by
    rw [Memory.writeProgram, Memory.read_writeProgram_outside (by omega)]
    exact Memory.read_write_same hm
  | r :: p, m, first, k + 1, hk, hp, hm => by
    simp only [List.length_cons] at hk hp
    have hwrite := Memory.wf_write (i := first) (w := r.encode) (by omega) hm
    rw [Memory.writeProgram, show first + (k + 1) = first + 1 + k by omega,
      Memory.read_writeProgram_inside (p := p) (by omega) (by omega) hwrite]
    rfl

theorem wordAt_installProgram_inside {s : State} {p : List Record} (hwf : Memory.wf s.store = true)
    (hfits : p.length ≤ 256) {k : Nat} (hk : k < p.length) :
    wordAt (installProgram p s) k = .ok (p[k]).encode := by
  have hread := Memory.read_writeProgram_inside (first := 0) hk (by omega) hwf
  rw [Nat.zero_add] at hread
  rw [wordAt_of_lt (by omega), installProgram_store, hread]

/-- Every index outside the program reads as before (R122). -/
theorem wordAt_installProgram_outside {p : List Record} {k : Nat} (hk : p.length ≤ k) (s : State) :
    wordAt (installProgram p s) k = wordAt s k := by
  have hread : Memory.read (installProgram p s).store k = Memory.read s.store k :=
    Memory.read_writeProgram_outside (by omega)
  rw [wordAt, wordAt, hread]

/-- Settles O42: the step installs the program, which writes the store below its length, and `len`. -/
theorem loadInstallsTheProgram : Obligations.LoadInstallsTheProgram := by
  intro s p rest hwf hs hpending hfits
  have hstep := step_of_load hs (nextTransaction_of_pending hpending) hfits
  rw [takeTransaction_of_pending hpending] at hstep
  refine ⟨_, hstep, fun k hk => wordAt_installProgram_inside hwf hfits hk,
    fun k hk => wordAt_installProgram_outside hk _, ?_, rfl, rfl, rfl, rfl⟩
  rw [installProgram_len, BitVec.toNat_ofNat]
  exact Nat.mod_eq_of_lt (by omega)

/-- Settles O43: of the three things `load` can do, the fault state and the length leave one. -/
theorem overlongLoadIsRefused : Obligations.OverlongLoadIsRefused := by
  intro s p hnext hlong
  rw [step_eq_hostLoad hnext]
  obtain ⟨hs, heq⟩ | ⟨_, hfits, _⟩ | ⟨hs, _, heq⟩ := hostLoad_cases p (takeTransaction s)
  · exact ⟨fun hfree => by simp [hfree] at hs, fun _ => heq⟩
  · omega
  · exact ⟨fun _ => heq, fun hactive => by simp [hactive] at hs⟩

end Machine
end Sys2Proof
end

section
/-! PROOFS. A word's form read off its high nibble, and the twelve conditional branches as two laws over the
condition they test; then the statements of spec/42_branch_conditional.md. -/

namespace Sys2Proof

/-! ## The form of a word (spec/30_encoding.md R70) -/

/-- Masked with 0xF000, a word keeps its opcode in place. -/
theorem and_0xF000 (w : Word) : w &&& 0xF000#16 = (decode w).opcode.setWidth 16 <<< 12 := by
  have hmatch := Laws.encode_match (decode w).opcode (decode w).operands.bits
  rwa [← encode, encode_decode] at hmatch

/-- The opcode map of R70, form by form: the high nibble and the low 12 bits of a word leave one
instruction for it. -/
theorem decode_of_nibble {c : BitVec 4} {i : Instr} {w : Word} (hopcode : i.opcode = c)
    (hops : i.operands = operandsOf w) (hword : w &&& 0xF000#16 = c.setWidth 16 <<< 12) :
    decode w = i := by
  have hplaced : ∀ a b : BitVec 4,
      (a.setWidth 16 <<< 12 : Word) = b.setWidth 16 <<< 12 → a = b := by decide
  have hnibble : (decode w).opcode = c := hplaced _ _ ((and_0xF000 w).symm.trans hword)
  have hencode : encode (decode w) = encode i := by
    rw [encode, encode, hnibble, hopcode, operands_decode, hops]
  simpa using congrArg decode hencode

namespace Machine

/-! ## The two laws of the conditional branches (R130) -/

/-- The signal a condition stands for in a snapshot (R75, R91, R92). -/
def WaitCond.signal (inp : ConditionInputs) : WaitCond → Bool
  | .any    => anyPending inp
  | .below  => inp.callPendingBelow
  | .same   => inp.callPendingSame
  | .above  => inp.callPendingAbove
  | .closed => inp.doorClosed
  | .opened => inp.doorOpen

/-- The selector answers a condition's signal, inverted or not (R90, R95). -/
theorem evaluate_waitCond (v : Bool) (c : WaitCond) (inp : ConditionInputs) :
    evaluate v c.condSel.toNat inp = .ok (c.signal inp ^^ v) := by
  cases c <;> rfl

/-- `BR.<c>` branches on the condition's signal. -/
theorem exec_branchIf_signal (c : WaitCond) (o : Operands) (s : State) :
    exec (branchIf c o) s =
      .next (branched o.jumpAddr (c.signal s.inputs) (outputOf o c.condSel false) s) :=
  exec_branchIf (by rw [evaluate_waitCond, Bool.xor_false])

/-- `BRN.<c>` branches on the absence of the condition's signal. -/
theorem exec_branchUnless_signal (c : WaitCond) (o : Operands) (s : State) :
    exec (branchUnless c o) s =
      .next (branched o.jumpAddr (!c.signal s.inputs) (outputOf o c.condSel true) s) :=
  exec_branchUnless (by rw [evaluate_waitCond, Bool.xor_true])

/-! ## Branches on a signal that is set (R131 to R136) -/

/-- Settles O11: nibble 0x0 is `BR.ANY`, and it branches on the OR of the three call signals. -/
theorem brAnyBranchesOnAnyCall : Obligations.BrAnyBranchesOnAnyCall :=
  ⟨fun _ hw => decode_of_nibble (Instr.opcode_brAny _) rfl hw, exec_branchIf_signal .any⟩

/-- Settles O12: nibble 0x1 is `BR.BELOW`, and it branches on `call_pending_below`. -/
theorem brBelowBranchesOnSetSignal : Obligations.BrBelowBranchesOnSetSignal :=
  ⟨fun _ hw => decode_of_nibble (Instr.opcode_brBelow _) rfl hw, exec_branchIf_signal .below⟩

/-- Settles O13: nibble 0x2 is `BR.SAME`, and it branches on `call_pending_same`. -/
theorem brSameBranchesOnSetSignal : Obligations.BrSameBranchesOnSetSignal :=
  ⟨fun _ hw => decode_of_nibble (Instr.opcode_brSame _) rfl hw, exec_branchIf_signal .same⟩

/-- Settles O14: nibble 0x3 is `BR.ABOVE`, and it branches on `call_pending_above`. -/
theorem brAboveBranchesOnSetSignal : Obligations.BrAboveBranchesOnSetSignal :=
  ⟨fun _ hw => decode_of_nibble (Instr.opcode_brAbove _) rfl hw, exec_branchIf_signal .above⟩

/-- Settles O15: nibble 0x4 is `BR.CLOSED`, and it branches on `door_closed`. -/
theorem brClosedBranchesOnSetSignal : Obligations.BrClosedBranchesOnSetSignal :=
  ⟨fun _ hw => decode_of_nibble (Instr.opcode_brClosed _) rfl hw, exec_branchIf_signal .closed⟩

/-- Settles O16: nibble 0x5 is `BR.OPEN`, and it branches on `door_open`. -/
theorem brOpenBranchesOnSetSignal : Obligations.BrOpenBranchesOnSetSignal :=
  ⟨fun _ hw => decode_of_nibble (Instr.opcode_brOpen _) rfl hw, exec_branchIf_signal .opened⟩

/-! ## Branches on a signal that is clear (R137 to R142) -/

/-- Settles O17: nibble 0x8 is `BRN.ANY`, and it branches on no call signal. -/
theorem brnAnyBranchesOnNoCall : Obligations.BrnAnyBranchesOnNoCall :=
  ⟨fun _ hw => decode_of_nibble (Instr.opcode_brnAny _) rfl hw, exec_branchUnless_signal .any⟩

/-- Settles O18: nibble 0x9 is `BRN.BELOW`, and it branches on not `call_pending_below`. -/
theorem brnBelowBranchesOnClearSignal : Obligations.BrnBelowBranchesOnClearSignal :=
  ⟨fun _ hw => decode_of_nibble (Instr.opcode_brnBelow _) rfl hw, exec_branchUnless_signal .below⟩

/-- Settles O19: nibble 0xA is `BRN.SAME`, and it branches on not `call_pending_same`. -/
theorem brnSameBranchesOnClearSignal : Obligations.BrnSameBranchesOnClearSignal :=
  ⟨fun _ hw => decode_of_nibble (Instr.opcode_brnSame _) rfl hw, exec_branchUnless_signal .same⟩

/-- Settles O20: nibble 0xB is `BRN.ABOVE`, and it branches on not `call_pending_above`. -/
theorem brnAboveBranchesOnClearSignal : Obligations.BrnAboveBranchesOnClearSignal :=
  ⟨fun _ hw => decode_of_nibble (Instr.opcode_brnAbove _) rfl hw, exec_branchUnless_signal .above⟩

/-- Settles O21: nibble 0xC is `BRN.CLOSED`, and it branches on not `door_closed`. -/
theorem brnClosedBranchesOnClearSignal : Obligations.BrnClosedBranchesOnClearSignal :=
  ⟨fun _ hw => decode_of_nibble (Instr.opcode_brnClosed _) rfl hw, exec_branchUnless_signal .closed⟩

/-- Settles O22: nibble 0xD is `BRN.OPEN`, and it branches on not `door_open`. -/
theorem brnOpenBranchesOnClearSignal : Obligations.BrnOpenBranchesOnClearSignal :=
  ⟨fun _ hw => decode_of_nibble (Instr.opcode_brnOpen _) rfl hw, exec_branchUnless_signal .opened⟩

end Machine
end Sys2Proof
end

section
/-! PROOFS. The two forms that select the constant-false source; the statements of
spec/43_branch_fixed.md. -/

namespace Sys2Proof.Machine

/-- Settles O23: nibble 0x7 is `NEXT`, and the constant-false source is its selector's answer. -/
theorem nextFallsThrough : Obligations.NextFallsThrough :=
  ⟨fun _ hw => decode_of_nibble (Instr.opcode_next _) rfl hw,
    fun o s => exec_eq_branched (i := .next o) (evaluate_fixed false s.inputs)⟩

/-- Settles O24: nibble 0xF is `JUMP`, and the inverted constant-false source is its selector's answer. -/
theorem jumpAlwaysBranches : Obligations.JumpAlwaysBranches :=
  ⟨fun _ hw => decode_of_nibble (Instr.opcode_jump _) rfl hw,
    fun o s => exec_eq_branched (i := .jump o) (evaluate_fixed true s.inputs)⟩

end Sys2Proof.Machine
end

section
/-! PROOFS. Fault entry in the terms of the claims, and the two forms that select the reserved index; the
statement of spec/44_reserved.md. -/

namespace Sys2Proof.Machine

/-- Fault entry writes the four fields of the fault register and nothing else (R172). -/
theorem enterFault_eq_faulted (f : Fault) (w : Word) (s : State) :
    enterFault f w s = faulted f.reason w s := rfl

/-- A reserved form takes the fault `RESERVED_COND_SEL`, with its own word and `pc` (R160, R161, R172). -/
theorem exec_eq_faulted {i : Instr} (hi : i.condSel = 6) (s : State) :
    exec i s = .next (faulted .reservedCondSel (encode i) s) := by
  rw [exec_of_reserved hi, enterFault_eq_faulted, Fault.reason]

/-- Settles O25: nibble 0x6 is `RSV6` and nibble 0xE is `RSV6N`, and both select the reserved index. -/
theorem reservedFormsTakeTheFault : Obligations.ReservedFormsTakeTheFault :=
  ⟨fun _ hw => decode_of_nibble (Instr.opcode_rsv6 _) rfl hw,
    fun _ hw => decode_of_nibble (Instr.opcode_rsv6n _) rfl hw,
    fun o s => ⟨exec_eq_faulted (i := .rsv6 o) rfl s, exec_eq_faulted (i := .rsv6n o) rfl s⟩⟩

end Sys2Proof.Machine
end

section
/-! PROOFS. The step that enters the fault, the only one that does, and the refusals after it; the statements
of spec/60_exceptions.md. -/

namespace Sys2Proof.Machine

/-! ## Entering the fault (R171, R172) -/

/-- A step on a reserved word is fault entry on this step's snapshot, in the terms of the claims. -/
theorem stepFaulted_eq_faulted (inp : ConditionInputs) (s : State) :
    stepFaulted inp s = faulted .reservedCondSel (fetchWord s) { s with inputs := inp } := rfl

/-- A faulting step returns the fault outcome and no Output (R172). -/
theorem stepResult_stepFaulted (inp : ConditionInputs) (s : State) :
    stepResult (stepFaulted inp s) = .error .reservedCondSel := rfl

/-- A word for which the selector answers is not reserved (R96). -/
theorem isReserved_eq_false_of_selectorAnswer {w : Word} {inp : ConditionInputs} {taken : Bool}
    (hsel : selectorAnswer w inp = .ok taken) : isReserved w = false := by
  refine Bool.eq_false_iff.mpr fun hw => ?_
  cases (selectorAnswer_of_reserved hw inp).symm.trans hsel

/-- Settles O39: a step on a reserved word is fault entry, which records the reason it is given. -/
theorem faultEntryIsPrecise : Obligations.FaultEntryIsPrecise := by
  refine ⟨fun s inp hs hnext hw => ⟨_, step_of_reserved hs hnext hw, ?_, ?_⟩,
    fun w s => ⟨enterFault_eq_faulted _ w s, enterFault_eq_faulted _ w s⟩⟩
  · rw [stepFaulted_eq_faulted, fetchWord_takeTransaction]
  · exact stepResult_stepFaulted inp _

/-- Settles O40: of the four transitions only fault entry writes the fault register, and the word of a
successful step is not reserved. -/
theorem onlyReservedWordsFault : Obligations.OnlyReservedWordsFault := by
  intro s t hs h
  obtain ⟨_, htrans⟩ := step_transition h
  have hbits : isReserved (fetchWord s) = true ↔ (fetchWord s).extractLsb' 12 3 = 6#3 :=
    isReserved_iff _
  rw [← hbits]
  cases htrans with
  | reset hnext => simp [hs, hnext]
  | load p hnext => simp [hs, hnext]
  | advance inp taken hnext hsel => simp [hs, isReserved_eq_false_of_selectorAnswer hsel]
  | fault inp hnext hreserved => simp [hnext, hreserved]

/-! ## After the fault (R174, R176) -/

/-- The refusal that answers a transaction while a fault is active (R120, R121, R190). -/
def refusalAfterFault : Transaction → Refusal
  | .reset  => .opAfterFault
  | .load _ => .opAfterFault
  | .step _ => .stepAfterFault

/-- The fault state is checked before anything else (R177): the active fault alone decides the refusal. -/
theorem perform_of_fault (t : Transaction) {s : State} (hs : s.fault.active = true) :
    perform t s = .refused (refusalAfterFault t) := by
  cases t with
  | reset => exact if_pos hs
  | load p => exact if_pos hs
  | step inp => exact if_pos hs

/-- No transaction of the faulted machine has a transition (R174). -/
theorem step_of_fault {s : State} {t : Transaction} (hs : s.fault.active = true)
    (hnext : nextTransaction s = t) : step s = .refused (refusalAfterFault t) := by
  rw [step, hnext, perform_of_fault t (by simpa using hs)]

/-- Settles O41: the refusal is the transaction's own, and no read consults the fault register. -/
theorem faultedEngineRefusesEveryTransaction :
    Obligations.FaultedEngineRefusesEveryTransaction := fun s hs =>
  ⟨fun _ hnext => step_of_fault hs hnext, fun _ hnext => step_of_fault hs hnext,
    fun hnext => step_of_fault hs hnext, fun _ ha => wordAt_of_lt ha s, rfl, rfl, rfl, rfl⟩

end Sys2Proof.Machine
end

section
/-! PROOFS. The zero word, the machine after reset and after boot, and the machine that holds no reserved word;
the statements of spec/70_reset_and_hazards.md. -/

namespace Sys2Proof.Machine

/-! ## The store without reserved words (R193, R201) -/

/-- The word that an unlisted index reads as is `BR.ANY 0` (R193), which is not reserved. -/
theorem isReserved_zero : isReserved 0#16 = false := by decide

theorem Memory.reservedFree_nil : Memory.reservedFree [] := fun _ => isReserved_zero

/-- A program put at index 0 holds its own encodings (R121). -/
theorem Memory.read_writeProgram_zero {p : List Record} {m : Memory} {k : Nat} (hk : k < p.length)
    (hfits : p.length ≤ 256) (hwf : Memory.wf m = true) :
    Memory.read (Memory.writeProgram m 0 p) k = (p[k]).encode := by
  simpa only [Nat.zero_add] using Memory.read_writeProgram_inside (first := 0) hk (by omega) hwf

/-- A program without reserved words, loaded over a store without them, brings none. -/
theorem Memory.reservedFree_writeProgram {p : List Record} {m : Memory} (hfits : p.length ≤ 256)
    (hwf : Memory.wf m = true) (hm : Memory.reservedFree m)
    (hp : Transaction.reservedFree (.load p)) :
    Memory.reservedFree (Memory.writeProgram m 0 p) := by
  intro k
  by_cases hk : k < p.length
  · rw [Memory.read_writeProgram_zero hk hfits hwf]
    exact hp _ (List.getElem_mem hk)
  · rw [Memory.read_writeProgram_outside (by omega)]
    exact hm k

/-! ## What keeps the machine free of reserved words -/

section ReservedFree
variable {s : State} (h : State.ReservedFree s)
include h

theorem isReserved_fetchWord_of_reservedFree : isReserved (fetchWord s) = false := by
  obtain ⟨_, hstore, _⟩ := h
  exact hstore s.pc.toNat

/-- A `load` that takes effect stood in the pending list; a step brings no word at all. -/
theorem reservedFree_nextTransaction : (nextTransaction s).reservedFree := by
  obtain ⟨_, _, hpending⟩ := h
  cases hs : s.pending with
  | nil => rw [nextTransaction_of_idle hs]; trivial
  | cons t ts => rw [nextTransaction_of_pending hs]; exact hpending t (by simp [hs])

theorem reservedFree_takeTransaction : State.ReservedFree (takeTransaction s) := by
  obtain ⟨hactive, hstore, hpending⟩ := h
  refine ⟨by simpa using hactive, by simpa using hstore, fun t ht => hpending t ?_⟩
  cases hs : s.pending with
  | nil => simp [takeTransaction_of_idle hs, hs] at ht
  | cons t' ts =>
    rw [takeTransaction_of_pending hs] at ht
    exact List.mem_cons_of_mem t' ht

theorem reservedFree_clearEngine : State.ReservedFree (clearEngine s) := by
  obtain ⟨hactive, _, hpending⟩ := h
  exact ⟨hactive, Memory.reservedFree_nil, hpending⟩

theorem reservedFree_installProgram {p : List Record} (hfits : p.length ≤ 256)
    (hwf : Memory.wf s.store = true) (hp : Transaction.reservedFree (.load p)) :
    State.ReservedFree (installProgram p s) := by
  obtain ⟨hactive, hstore, hpending⟩ := h
  exact ⟨hactive, Memory.reservedFree_writeProgram hfits hwf hstore hp, hpending⟩

/-- A successful step writes none of the fields that the condition is about. -/
theorem reservedFree_stepped (inp : ConditionInputs) (taken : Bool) :
    State.ReservedFree (stepped inp taken s) := h

/-- Every transition but fault entry keeps the condition, and without a reserved word none enters the
fault (R171). -/
theorem reservedFree_and_wf_of_transition (hwf : Memory.wf s.store = true) {t : State}
    (htrans : Transition s t) :
    State.ReservedFree t ∧ Memory.wf t.store = true := by
  have htake := reservedFree_takeTransaction h
  cases htrans with
  | reset => exact ⟨reservedFree_clearEngine htake, Memory.wf_nil⟩
  | load p hnext hfits =>
    have hp : Transaction.reservedFree (.load p) := hnext ▸ reservedFree_nextTransaction h
    exact ⟨reservedFree_installProgram htake hfits (by simpa using hwf) hp,
      by simpa using Memory.wf_writeProgram (first := 0) (by omega) hwf⟩
  | advance inp taken => exact ⟨reservedFree_stepped htake inp taken, by simpa using hwf⟩
  | fault inp _ hreserved => simp [isReserved_fetchWord_of_reservedFree h] at hreserved

end ReservedFree

/-! ## The transactions of a machine without a fault -/

/-- Without a fault, `reset` clears the engine (R190). -/
theorem step_of_reset {s : State} (hs : s.fault.active = false) (hnext : nextTransaction s = .reset) :
    step s = .next (clearEngine (takeTransaction s)) := by
  rw [step, hnext, perform]
  simp [hostReset, hs]

/-- Without a fault, the one refusal is that of a program too long for the store (R121, R176). -/
theorem refusal_of_unfaulted {s : State} {r : Refusal} (hs : s.fault.active = false)
    (h : step s = .refused r) : r = .loadTooLong := by
  cases hnext : nextTransaction s with
  | reset => cases (step_of_reset hs hnext).symm.trans h
  | load p =>
    rw [step_eq_hostLoad hnext] at h
    obtain ⟨hactive, _⟩ | ⟨_, _, heq⟩ | ⟨_, _, heq⟩ := hostLoad_cases p (takeTransaction s)
    · simp [hs] at hactive
    · cases heq.symm.trans h
    · cases heq.symm.trans h
      rfl
  | step inp =>
    obtain ⟨_, heq⟩ | ⟨_, _, _, heq⟩ := step_unfaulted_cases hs hnext <;>
      cases heq.symm.trans h

/-- Settles O52: the transitions keep the condition, a step without a fault always has a successor
(R119), and a refusal without a fault is LOAD_TOO_LONG. -/
theorem reservedFreeEngineNeverFaults : Obligations.ReservedFreeEngineNeverFaults := by
  intro s h hwf
  have ⟨hs, _, _⟩ := h
  refine ⟨fun t ht => ?_, fun inp hnext => ?_, fun r hr => refusal_of_unfaulted hs hr⟩
  · obtain ⟨_, htrans⟩ := step_transition ht
    exact reservedFree_and_wf_of_transition h hwf htrans
  · obtain ⟨t, ht, _⟩ := everyUnfaultedStepHasASuccessor s inp hs hnext
    exact ⟨t, ht⟩

/-! ## Reset and power-on (R190 to R192) -/

theorem decodeFields_zero : decodeFields 0 = zeroFields := by decide

theorem readOut_of_out_zero {s : State} (h : s.out = zeroFields) : readOut s = 0 := by
  rw [readOut, h, ← decodeFields_zero, word_decodeFields]

/-- An empty store reads 0x0000 at every index. -/
theorem wordAt_of_store_nil {s : State} (hempty : s.store = []) {a : Nat} (ha : a < 256) :
    wordAt s a = .ok 0 := by
  rw [wordAt_of_lt ha, hempty]
  rfl

/-- Settles O44: the step clears the engine, whose empty store and zero fields read as 0x0000. -/
theorem resetClearsTheEngine : Obligations.ResetClearsTheEngine := by
  intro s rest hs hpending
  have hstep := step_of_reset hs (nextTransaction_of_pending hpending)
  rw [takeTransaction_of_pending hpending] at hstep
  exact ⟨_, hstep, rfl, fun _ ha => wordAt_of_store_nil rfl ha, rfl, decodeFields_zero.symm,
    readOut_of_out_zero rfl, rfl, rfl⟩

/-- Settles O45: the store at power-on is empty, and every register is a zero of its type. -/
theorem powerOnState : Obligations.PowerOnState :=
  ⟨rfl, fun _ ha => wordAt_of_store_nil rfl ha, rfl, readOut_of_out_zero rfl, rfl, rfl, rfl, rfl⟩

/-- Settles O51: the empty store is canonical and holds no reserved word, and nothing is pending. -/
theorem powerOnMeetsTheInvariants : Obligations.PowerOnMeetsTheInvariants :=
  ⟨⟨Memory.wf_nil, Nat.zero_le 256, rfl⟩, rfl, Memory.reservedFree_nil, List.forall_mem_nil _⟩

/-! ## The zero word (R193) -/

/-- The zero word asks the selector for any call, not inverted (R131). -/
theorem selectorAnswer_zero (inp : ConditionInputs) :
    selectorAnswer 0 inp = .ok (anyPending inp) :=
  congrArg Except.ok (Bool.xor_false (anyPending inp))

/-- Settles O48: `BR.ANY 0` branches to 0 on a call and falls through otherwise, and its own word, latched,
commands nothing. -/
theorem zeroWordWalksOrReturns : Obligations.ZeroWordWalksOrReturns := by
  intro s inp hs hnext hzero
  have hsel : selectorAnswer (fetchWord s) inp = .ok (anyPending inp) :=
    hzero ▸ selectorAnswer_zero inp
  refine ⟨_, step_of_selectorAnswer hs hnext hsel, ?_, by simp [readOut, hzero], by simp [hs]⟩
  simp [nextPc_operandsOf, hzero, anyPending]

/-! ## Boot (R195, R197) -/

/-- `len` counts the records loaded (R121). -/
theorem toNat_len_installProgram {p : List Record} (hfits : p.length ≤ 256) (s : State) :
    (installProgram p s).len.toNat = p.length := by
  rw [installProgram_len, BitVec.toNat_ofNat]
  exact Nat.mod_eq_of_lt (by omega)

/-- After a load into an empty store, the store is the image followed by zeros (R197). -/
theorem wordAt_installProgram_of_store_nil {s : State} {image : List Record} (hempty : s.store = [])
    (hfits : image.length ≤ 256) :
    (∀ (k : Nat) (hk : k < image.length),
      wordAt (installProgram image s) k = .ok (image[k]).encode) ∧
    (∀ k : Nat, image.length ≤ k → k < 256 → wordAt (installProgram image s) k = .ok 0) := by
  have hwf : Memory.wf s.store = true := hempty ▸ Memory.wf_nil
  refine ⟨fun k hk => wordAt_installProgram_inside hwf hfits hk, fun k hk hlt => ?_⟩
  rw [wordAt_installProgram_outside hk, wordAt_of_store_nil hempty hlt]

/-- A run goes on from the next state of its first step. -/
theorem run_succ_of_step {s t : State} (h : step s = .next t) (k : Nat) :
    Host.Core.run core (k + 1) s = Host.Core.run core k t := by
  have hcore : core.step s = .next t := h
  simp only [Host.Core.run, hcore]

/-- The two transactions of the boot order install the image in the cleared engine (R124, R195). -/
theorem run_bootTransactions {s : State} {image : List Record} (hs : s.fault.active = false)
    (hpending : s.pending = bootTransactions image) (hfits : image.length ≤ 256) :
    Host.Core.run core 2 s =
      .next (installProgram image (clearEngine { s with pending := [] })) := by
  have hreset := step_of_reset hs (nextTransaction_of_pending hpending)
  rw [takeTransaction_of_pending hpending] at hreset
  have hload := step_of_load (s := clearEngine { s with pending := [.load image] }) hs
    (nextTransaction_of_pending rfl) hfits
  rw [run_succ_of_step hreset, run_succ_of_step hload]
  rfl

/-- Settles O46: both boot orders install the image over an empty store. -/
theorem bootHoldsTheImage : Obligations.BootHoldsTheImage := by
  intro image hfits
  constructor
  · intro s hs hpending
    obtain ⟨hinside, houtside⟩ := wordAt_installProgram_of_store_nil
      (s := clearEngine { s with pending := [] }) rfl hfits
    exact ⟨_, run_bootTransactions hs hpending hfits, rfl, toNat_len_installProgram hfits _,
      hinside, houtside, readOut_of_out_zero rfl, rfl, rfl⟩
  · obtain ⟨hinside, houtside⟩ := wordAt_installProgram_of_store_nil (s := State.reset) rfl hfits
    have hboot : boot image = .next (installProgram image State.reset) := by
      simp [boot, hostLoad, programFits, hfits, State.reset, noFault]
    exact ⟨_, hboot, rfl, toNat_len_installProgram hfits _, hinside, houtside⟩

/-! ## A load between two steps (R200) -/

/-- At a `pc` inside the loaded range the fetch reads the new word. -/
theorem fetchWord_installProgram_inside {s : State} {p : List Record} (hk : s.pc.toNat < p.length)
    (hfits : p.length ≤ 256) (hwf : Memory.wf s.store = true) :
    fetchWord (installProgram p s) = (p[s.pc.toNat]).encode :=
  Memory.read_writeProgram_zero hk hfits hwf

/-- At a `pc` outside the loaded range the fetch reads the old word (R122). -/
theorem fetchWord_installProgram_outside {s : State} {p : List Record} (hk : p.length ≤ s.pc.toNat) :
    fetchWord (installProgram p s) = fetchWord s :=
  Memory.read_writeProgram_outside (k := s.pc.toNat) (by omega)

/-- Settles O47: the load leaves `pc` alone, so the next fetch reads the new store at the old `pc`. -/
theorem nextFetchSeesTheLoad : Obligations.NextFetchSeesTheLoad := by
  intro s p inp rest hwf hs hpending hfits
  have hload := step_of_load hs (nextTransaction_of_pending hpending) hfits
  rw [takeTransaction_of_pending hpending] at hload
  obtain ⟨hnext, _⟩ := stepRunsTheDecodedInstruction
    (installProgram p { s with pending := .step inp :: rest }) hs
  refine ⟨_, hload, rfl, fun hk => ?_, fun hk => ?_⟩
  · rw [hnext inp rest rfl, ← fetchWord,
      fetchWord_installProgram_inside (s := { s with pending := .step inp :: rest }) hk hfits hwf]
  · rw [hnext inp rest rfl, ← fetchWord,
      fetchWord_installProgram_outside (s := { s with pending := .step inp :: rest }) hk]
    rfl

end Sys2Proof.Machine
end

section
/-! PROOFS. The three encoders as left inverses of one field decoder, and the words written out from the opcode
table (spec/30_encoding.md). -/

namespace Sys2Proof

/-- A form's fields are those of its word. -/
theorem decodeFields_encode (i : Instr) : decodeFields (encode i) = i.fields := by
  rw [← fields_decode, decode_encode]

/-- R66's packing puts the fields of a word, taken as numbers, back at their places. -/
theorem encode_toRecord_decodeFields (w : Word) : (decodeFields w).toRecord.encode = w := by
  apply BitVec.eq_of_toNat_eq
  rw [encodeKeepsOnlyTheLowBits, toRecord_decodeFields]
  have hw : w.toNat < 65536 := w.isLt
  dsimp only
  omega

/-- Settles O5: a form's fields are those of its word, and both other encoders give a word back from its
fields. -/
theorem theThreeEncodersAgree : Obligations.TheThreeEncodersAgree := by
  intro i
  rw [← decodeFields_encode, word_decodeFields, encode_toRecord_decodeFields]
  exact ⟨rfl, rfl⟩

/-- A word decodes to the form whose encoding it is (R68). -/
theorem decode_eq_of_encode_eq {i : Instr} {w : Word} (h : encode i = w) : decode w = i :=
  h ▸ decode_encode i

/-- Settles O7: each word is the encoding of its instruction. -/
theorem writtenWordsDecode : Obligations.WrittenWordsDecode :=
  ⟨decode_eq_of_encode_eq rfl, decode_eq_of_encode_eq rfl, decode_eq_of_encode_eq rfl,
    decode_eq_of_encode_eq rfl, decode_eq_of_encode_eq rfl, decode_eq_of_encode_eq rfl,
    decode_eq_of_encode_eq rfl, decode_eq_of_encode_eq rfl⟩

end Sys2Proof
end
